-- ==== Sys2Proof/Word.lean ====
section
/-! DEFINITION. The bit vectors of the Framer (spec 00_scope.md R8, R15): bytes, the 16-bit decoded
length, and the 4-bit value of a hex digit. Nothing in the block is signed. -/

namespace Sys2Proof

/-- One byte of the stream or of the frame buffer (R15, R70). -/
abbrev Byte := BitVec 8

/-- The decoded length of a binary frame (R8, R26, R76). -/
abbrev Half := BitVec 16

/-- The value of one hex digit (R75). -/
abbrev Nibble := BitVec 4

end Sys2Proof
end

