-- ==== Sys2Proof/Machine/Operands.lean ====
section
/-! DEFINITION. Operand assembly (spec 30_encoding.md R75, R76) and the arithmetic of the two checksum
engines (41_text_track.md R114, R116; 42_binary_track.md R140). -/

namespace Sys2Proof.Machine

/-- `is_hex(b)`: one of the sixteen upper-case hex digit codes (R75). -/
def isHex (b : Byte) : Bool :=
  (decide (0x30#8 ≤ b) && decide (b ≤ 0x39#8)) || (decide (0x41#8 ≤ b) && decide (b ≤ 0x46#8))

/-- `hexval(b)` (R75). The rule defines it only where `is_hex` holds, and decode uses it only there. -/
def hexVal (b : Byte) : Nibble :=
  if b ≤ 0x39#8 then (b - 0x30#8).setWidth 4 else (b - 0x41#8 + 10#8).setWidth 4

/-- The byte that spells the digit `h` (R75, for builders). -/
def hexDigit (h : Nibble) : Byte :=
  if h ≤ 9#4 then 0x30#8 + h.setWidth 8 else 0x41#8 + h.setWidth 8 - 10#8

/-- A digit in bits 7 to 4, zeros below (R114). -/
def highNibble (h : Nibble) : Byte := h ++ 0b0000#4

/-- A digit in bits 3 to 0, zeros above (R116). -/
def lowNibble (h : Nibble) : Byte := h.setWidth 8

/-- The decoded length `{hi, lo}`: the second length byte is bits 15 to 8 (R55, R76). -/
def assembleLength (lo hi : Byte) : Half := hi ++ lo

/-- The new `(acc1, acc2)` of `Sum(b)` (R140): `acc2` adds the new `acc1`; both drop the carry. -/
def runningSum (acc : Byte × Byte) (b : Byte) : Byte × Byte :=
  (acc.1 + b, acc.2 + (acc.1 + b))

end Sys2Proof.Machine
end

