-- ==== Sys2Proof/Config.lean ====
section
/-! DEFINITION. What an implementation fixes (spec 00_scope.md R6 to R9, R14) and the free values,
opaque constants without a body, so that nothing in Lean can evaluate them or prove a value of them. -/

namespace Sys2Proof

/-- The parameters of one Framer. Every rule is total for every choice of them (R10). -/
structure Config where
  /-- `TEXT_START` (R6). -/
  textStart : Byte
  /-- `TEXT_CSTOK` (R6). -/
  textCstok : Byte
  /-- `TEXT_END1` (R6). -/
  textEnd1 : Byte
  /-- `TEXT_END2` (R6). -/
  textEnd2 : Byte
  /-- `TEXT_MAX_CHAR` (R6). -/
  textMaxChar : Byte
  /-- `BIN_SYNC1` (R6). -/
  binSync1 : Byte
  /-- `BIN_SYNC2` (R6). -/
  binSync2 : Byte
  /-- `TEXT_MAX_LEN` (R7): it enters only through the capacity. -/
  textMaxLen : Nat
  /-- `BINARY_MAX_LEN` (R7): it enters only through the capacity. -/
  binaryMaxLen : Nat
  /-- `TIMEOUT_MS` (R9): carried by `ArmTimeout`, never computed with. -/
  timeoutMs : Nat
  deriving DecidableEq, Repr

namespace Config

/-- The capacity `C = max(TEXT_MAX_LEN, BINARY_MAX_LEN)` of the frame buffer (R7). -/
def C (cfg : Config) : Nat := max cfg.textMaxLen cfg.binaryMaxLen

/-- FREE VALUE: the deadline of the reference configuration. The source gives no value and no width
(R9, 93_implementation_defined.md U10; log entry 2). -/
opaque timeoutMsValue : Nat

/-- FREE VALUE: what a buffer cell that nothing has written reads as, for a power-up and a cell index
(R28, R51, 93_implementation_defined.md U5; log entry 4). -/
opaque unwrittenByte : Nat → Nat → Byte

/-- FREE VALUE: what the read port shows at an index outside the buffer, for a power-up and an index
(R184, 93_implementation_defined.md U12; log entry 5). -/
opaque beyondByte : Nat → Nat → Byte

/-- `CFG_REF`: the reference values of R6 and R7 (PRESUMED and DESIGN CHOICE: log entry 1). -/
def reference : Config where
  textStart := 0x24
  textCstok := 0x2A
  textEnd1 := 0x0D
  textEnd2 := 0x0A
  textMaxChar := 0x7E
  binSync1 := 0xB5
  binSync2 := 0x62
  textMaxLen := 82
  binaryMaxLen := 128
  timeoutMs := timeoutMsValue

end Config

end Sys2Proof
end

