-- ==== Sys2Proof/Syntax.lean ====
section
/-! DEFINITION. The input alphabet (spec 00_scope.md R12, 30_encoding.md R70) and the operations an
input event can perform: one constructor for each row of spec/opcode_table.json (R79, R85). -/

namespace Sys2Proof

/-- An input event (R12). It is what the environment sends: the "instruction word" of this block. -/
inductive Event where
  /-- `FEED(b)`: one received byte. -/
  | feed (b : Byte)
  /-- `ABORT`: externally forced return to idle (R176). -/
  | abort
  /-- `RESET`: creation of the Session (R177, R230). -/
  | reset
  deriving DecidableEq, Repr

/-- The operation an event performs (R17, R79): a row of the opcode table with its operand. The operand
is the byte of the event, or the value of the hex digit it spells, or nothing where the configuration
or the row itself fixes the byte. -/
inductive Instr where
  /-- START.TEXT (R102). -/
  | startText
  /-- START.BIN (R103). -/
  | startBin
  /-- IDLE.SKIP (R101). -/
  | idleSkip (b : Byte)
  /-- TXT.NOISE (R110). -/
  | txtNoise (b : Byte)
  /-- TXT.CSTOK (R111). -/
  | txtCstok
  /-- TXT.OVF (R112). -/
  | txtOvf (b : Byte)
  /-- TXT.APPEND (R113). -/
  | txtAppend (b : Byte)
  /-- TXT.HEX1 (R114), with the digit's value. -/
  | txtHex1 (h : Nibble)
  /-- TXT.HEX1.BAD (R115). -/
  | txtHex1Bad (b : Byte)
  /-- TXT.HEX2 (R116), with the digit's value. -/
  | txtHex2 (h : Nibble)
  /-- TXT.HEX2.BAD (R117). -/
  | txtHex2Bad (b : Byte)
  /-- TXT.END1 (R118). -/
  | txtEnd1
  /-- TXT.END1.BAD (R119). -/
  | txtEnd1Bad (b : Byte)
  /-- TXT.END2.BAD (R122). -/
  | txtEnd2Bad (b : Byte)
  /-- TXT.END2.OK (R120). -/
  | txtEnd2Ok
  /-- TXT.END2.CKFAIL (R121). -/
  | txtEnd2Ckfail
  /-- BIN.SYNC2 (R141). -/
  | binSync2
  /-- BIN.SYNC2.BAD (R142). -/
  | binSync2Bad (b : Byte)
  /-- BIN.LEN0 (R143). -/
  | binLen0 (b : Byte)
  /-- BIN.LEN1.OVF (R146). -/
  | binLen1Ovf (b : Byte)
  /-- BIN.LEN1.ZERO (R145): the byte is 0x00. -/
  | binLen1Zero
  /-- BIN.LEN1 (R144). -/
  | binLen1 (b : Byte)
  /-- BIN.PAY.OVF (R149). -/
  | binPayOvf (b : Byte)
  /-- BIN.PAY.LAST (R148). -/
  | binPayLast (b : Byte)
  /-- BIN.PAY (R147). -/
  | binPay (b : Byte)
  /-- BIN.CKA (R150). -/
  | binCka (b : Byte)
  /-- BIN.CKA.BAD (R151). -/
  | binCkaBad (b : Byte)
  /-- BIN.CKB.OK (R152). -/
  | binCkbOk (b : Byte)
  /-- BIN.CKB.BAD (R153). -/
  | binCkbBad (b : Byte)
  /-- ABORT (R176). -/
  | abort
  /-- RESET (R230). -/
  | reset
  deriving DecidableEq, Repr

end Sys2Proof
end

