-- ==== Sys2Proof/Machine/State.lean ====
section
/-! DEFINITION. The state of the Framer as plain data: the Session (spec 10_state.md R20), the
configuration it runs under, the effects of the last step, the events not yet processed; the reasons a
step can stop; and the machine right after reset. -/

namespace Sys2Proof.Machine

/-- The eleven values of the `state` register (R21). The codes outside R21's list cannot be written
(93_implementation_defined.md U7). -/
inductive FsmState where
  | waitForStart
  | expectPayloadOrChecksumTok
  | expectChecksumHex1
  | expectChecksumHex2
  | expectEnd1
  | expectEnd2
  | expectSync2
  | expectLength
  | expectPayload
  | expectCheckA
  | expectCheckB
  deriving DecidableEq, Repr

/-- The three values of `activeProtocol` (R23). -/
inductive Proto where
  | undetermined
  | text
  | binary
  deriving DecidableEq, Repr

/-- The cause labels of the silent abort (R201). They are labels for the reader and for proofs: no rule
stores or outputs one (R200). -/
inductive AbortCause where
  | invalidCharacter
  | bufferOverflow
  | terminatorMismatch
  | checksumMismatch
  | lengthOverflow
  | syncMismatch
  | timeout
  deriving DecidableEq, Repr

/-- What a step emits (R13, R170 to R172). A delivered frame carries its bytes by value (R234). -/
inductive Effect where
  /-- `ArmTimeout(TIMEOUT_MS)`. -/
  | armTimeout (ms : Nat)
  /-- `FrameText(len, bytes)`. -/
  | frameText (len : Nat) (bytes : List Byte)
  /-- `FrameBinary(len, bytes)`. -/
  | frameBinary (len : Nat) (bytes : List Byte)
  deriving DecidableEq, Repr

/-- The contents of the frame buffer (R28, R50): the cells written since power-up, indices strictly
rising. A cell that is not listed has never been written and holds no value the spec states. -/
abbrev Memory := List Host.Cell

/-- The Session: the whole architectural state of the spec (R20). -/
structure Session where
  /-- `state` (R21). -/
  state : FsmState
  /-- `activeProtocol` (R23). -/
  proto : Proto
  /-- `xor_acc` (R24). -/
  xorAcc : Byte
  /-- `acc1` (R25). -/
  acc1 : Byte
  /-- `acc2` (R25). -/
  acc2 : Byte
  /-- `exp_len` (R26). -/
  expLen : Half
  /-- `wr_cnt` (R27): 0 to `C`, held as a Nat since its width depends on `C` (log entry 12). -/
  wrCnt : Nat
  /-- `buf` (R28). -/
  buf : Memory
  deriving DecidableEq, Repr

/-- The reasons a step can stop. Both are the model's own: no rule of the spec performs such an access,
and no state with the invariants of R35 reaches one (log entry 9). Safe: the model stops where the spec
says nothing. -/
inductive Fault where
  /-- A write to a buffer cell that does not exist, index at or above `C` (R52). Raised by `Append` with
  `wr_cnt` above `C`. Safe. -/
  | noSuchCellWrite (index : Nat)
  /-- A read of a buffer cell that does not exist, index at or above `C` (R51). Raised by the two
  delivering operations, with the last index of the range, when the delivered range leaves the buffer.
  Safe. -/
  | noSuchCellRead (index : Nat)
  deriving DecidableEq, Repr

/-- The reasons for having no meaning. -/
inductive Refusal where
  /-- The instruction has no meaning in this model. Raised by `exec` only; every instruction has its
  meaning, so nothing raises it. Safe. -/
  | notModelled (mnemonic : String)
  deriving DecidableEq, Repr

/-- The machine: the Session with what one step of it reads and shows. -/
structure State where
  /-- The configuration (R14): no step changes it (R232; log entry 1). -/
  cfg : Config
  /-- The MODEL's own field: which power-up contents the never-written cells hold; the free values
  `Config.unwrittenByte` and `Config.beyondByte` are applied to it (log entry 7). -/
  powerUp : Nat
  /-- The Session (R20). -/
  session : Session
  /-- The effects of the last step in order (R13, R173); the registered outputs of R183 show them. -/
  effects : List Effect
  /-- The MODEL's own field: input events delivered and not yet processed, oldest first (R12; log
  entry 6). -/
  input : List Event
  deriving DecidableEq, Repr

/-- The Session right after the first `RESET` (R33, R230): no buffer cell holds a stated value. -/
def Session.reset : Session where
  state := .waitForStart
  proto := .undetermined
  xorAcc := 0x00
  acc1 := 0x00
  acc2 := 0x00
  expLen := 0x0000
  wrCnt := 0
  buf := []

/-- The machine right after reset (R33, R230), with the reference configuration (log entry 1), no effect
emitted and no event delivered (log entry 6). -/
def State.reset : State where
  cfg := Config.reference
  powerUp := 0
  session := Session.reset
  effects := []
  input := []

end Sys2Proof.Machine
end

