-- ==== Sys2Proof/Machine/Flags.lean ====
section
/-! DEFINITION. The block stores no flag (spec 10_state.md R30): these are the combinational predicates
of the incoming byte and the registers that decode reads, recomputed for every byte. -/

namespace Sys2Proof.Machine

/-- `is_tstart` (R30). -/
def isTStart (s : State) (b : Byte) : Bool := b == s.cfg.textStart

/-- `is_bsync1` (R30). -/
def isBSync1 (s : State) (b : Byte) : Bool := b == s.cfg.binSync1

/-- `is_noise` (R30): an unsigned compare, equal is allowed (R110). -/
def isNoise (s : State) (b : Byte) : Bool := decide (s.cfg.textMaxChar < b)

/-- `is_cstok` (R30). -/
def isCstok (s : State) (b : Byte) : Bool := b == s.cfg.textCstok

/-- `is_end1` (R30). -/
def isEnd1 (s : State) (b : Byte) : Bool := b == s.cfg.textEnd1

/-- `is_end2` (R30). -/
def isEnd2 (s : State) (b : Byte) : Bool := b == s.cfg.textEnd2

/-- `is_bsync2` (R30). -/
def isBSync2 (s : State) (b : Byte) : Bool := b == s.cfg.binSync2

/-- `buf_full` (R30). -/
def bufFull (s : State) : Bool := s.session.wrCnt == s.cfg.C

/-- `xor_ok` (R30). -/
def xorOk (s : State) : Bool := s.session.xorAcc == 0

/-- `cka_ok` (R30). -/
def ckaOk (s : State) (b : Byte) : Bool := b == s.session.acc1

/-- `ckb_ok` (R30). -/
def ckbOk (s : State) (b : Byte) : Bool := b == s.session.acc2

/-- `len_over` (R30): the decoded length against the capacity, as integers (R15, R76). -/
def lenOver (s : State) (len : Half) : Bool := decide (s.cfg.C < len.toNat)

/-- `pay_done` (R30): the count after the append equals `exp_len` plus the length-field width, as
integers (R15, R148). -/
def payDone (s : State) : Bool := s.session.wrCnt + 1 == s.session.expLen.toNat + 2

/-- The start-token test is enabled: `state = WaitForStart` or `proto = Text` (R78). -/
def startEnabled (s : State) : Bool :=
  s.session.state == .waitForStart || s.session.proto == .text

end Sys2Proof.Machine
end

