-- ==== Sys2Proof/Machine/Ops.lean ====
section
/-! DEFINITION. The named operations every meaning is built from: the frame buffer and its `Append`
(spec 20_memory.md R51 to R53), the running-sum update (42_binary_track.md R140), the silent abort
(60_exceptions.md R200), the end of a step with its effects (00_scope.md R13, R16), and taking the next
event from the input (R12). -/

namespace Sys2Proof.Machine

/-! ## The frame buffer -/

/-- The byte last written at index `a`, if any (R51). -/
def readCell : Memory → Nat → Option Byte
  | [], _ => none
  | (k, v) :: rest, a => if k = a then some v else readCell rest a

/-- Write one cell, keeping the indices strictly rising (R52). -/
def writeCell : Memory → Nat → Byte → Memory
  | [], a, v => [(a, v)]
  | (k, w) :: rest, a, v =>
    if a < k then (a, v) :: (k, w) :: rest
    else if a = k then (a, v) :: rest
    else (k, w) :: writeCell rest a v

/-- The canonical form: indices strictly rising. Equal contents are then equal lists. -/
def Memory.wf : Memory → Bool
  | [] => true
  | [_] => true
  | (a, _) :: (b, w) :: rest => decide (a < b) && Memory.wf ((b, w) :: rest)

/-- What cell `a` reads as: the byte last written there, else an unspecified byte, which stays the same
however often it is read (R51). -/
def cellByte (s : State) (a : Nat) : Byte :=
  (readCell s.session.buf a).getD (Config.unwrittenByte s.powerUp a)

/-- `MemRead(a, 1)` (R51): there is a byte at `a` exactly when `a` is an index of the buffer. -/
def memRead (s : State) (a : Nat) : Option Byte :=
  if a < s.cfg.C then some (cellByte s a) else none

/-- The `n` bytes from index `a` on, if they all exist (R120, R152). -/
def readRange (s : State) : Nat → Nat → Option (List Byte)
  | _, 0 => some []
  | a, n + 1 =>
    match memRead s a with
    | none => none
    | some v =>
      match readRange s (a + 1) n with
      | none => none
      | some vs => some (v :: vs)

/-- The length decoded when the byte `b` arrives: `MemRead(0,1) + 256 * b` (R76, R144). -/
def decodedLength (s : State) (b : Byte) : Half := assembleLength (cellByte s 0) b

/-- What `Append` can answer (R53). -/
inductive Appended where
  /-- The byte is stored and the count is one more. -/
  | stored (ses : Session)
  /-- `wr_cnt == C`: the overflow branch, nothing is written. -/
  | overflow
  /-- `wr_cnt` is above `C`: the cell does not exist. Not reachable (R35, I-2). -/
  | noCell
  deriving DecidableEq, Repr

/-- `Append(b)` (R53): the bounds-checked write at the cursor. -/
def append (s : State) (b : Byte) : Appended :=
  if s.session.wrCnt = s.cfg.C then .overflow
  else if s.session.wrCnt < s.cfg.C then
    .stored { s.session with
      buf := writeCell s.session.buf s.session.wrCnt b
      wrCnt := s.session.wrCnt + 1 }
  else .noCell

/-! ## The checksum engines, the abort, the end of a step -/

/-- `Sum(b)` (R140). -/
def sum (b : Byte) (ses : Session) : Session :=
  { ses with
    acc1 := (runningSum (ses.acc1, ses.acc2) b).1
    acc2 := (runningSum (ses.acc1, ses.acc2) b).2 }

/-- Fold a byte into the XOR accumulator (R24). -/
def absorb (b : Byte) (ses : Session) : Session :=
  { ses with xorAcc := ses.xorAcc ^^^ b }

/-- `state <- f` (R16). -/
def goto (f : FsmState) (ses : Session) : Session := { ses with state := f }

/-- `raise Abort(cause)` (R200): `state <- WaitForStart` and nothing else; nothing is saved, and the
cause is a label that is not stored. The return from it is the next byte's start-token test (R208). -/
def raiseAbort (_cause : AbortCause) (ses : Session) : Session := goto .waitForStart ses

/-- The end of a step: its register and buffer writes take effect together, and these are its effects
(R13, R16). -/
def commit (s : State) (ses : Session) (effs : List Effect) : State :=
  { s with session := ses, effects := effs }

/-- `ArmTimeout(TIMEOUT_MS)` (R170). -/
def arm (s : State) : Effect := .armTimeout s.cfg.timeoutMs

/-- A step that emits `ArmTimeout` and nothing else (R170). -/
def armed (s : State) (ses : Session) : Host.Outcome State Fault Refusal :=
  .next (commit s ses [arm s])

/-- A step that emits `ArmTimeout` and raises the silent abort (R200, 90_conflicts.md C1). -/
def aborted (cause : AbortCause) (s : State) : Host.Outcome State Fault Refusal :=
  armed s (raiseAbort cause s.session)

/-- A step that appends `b` and goes on with `k`; the overflow branch of `Append` does nothing else of
the step (R53, R157). -/
def appending (b : Byte) (k : Session → Session) (s : State) : Host.Outcome State Fault Refusal :=
  match append s b with
  | .stored ses => armed s (k ses)
  | .overflow => aborted .bufferOverflow s
  | .noCell => .fault (.noSuchCellWrite s.session.wrCnt)

/-- A step that delivers the `n` bytes from index `base` and returns to idle; the frame effect comes
first, then `ArmTimeout` (R120, R152, R173). -/
def delivering (frame : Nat → List Byte → Effect) (base n : Nat) (s : State) :
    Host.Outcome State Fault Refusal :=
  match readRange s base n with
  | some bytes => .next (commit s (goto .waitForStart s.session) [frame n bytes, arm s])
  | none => .fault (.noSuchCellRead (base + n - 1))

/-! ## The input -/

/-- The oldest event not yet processed, and the state without it (R12). -/
def takeEvent (s : State) : Option (Event × State) :=
  match s.input with
  | [] => none
  | e :: rest => some (e, { s with input := rest })

/-- With no event the Session holds and no effect is emitted (R182, R214). -/
def holdIdle (s : State) : State := { s with effects := [] }

end Sys2Proof.Machine
end

