-- ==== Sys2Proof/WellFormed.lean ====
section
/-! DEFINITION. Which configurations the spec's laws assume (spec 00_scope.md R10) and which operations
can be spelled at all: the byte condition of each row of the opcode table (30_encoding.md R79, R85). -/

namespace Sys2Proof

/-- A byte that is not a hex digit, not a terminator byte and not the checksum token of `cfg` (R10). -/
def Config.freeOfTextTokens (cfg : Config) (b : Byte) : Bool :=
  !(Machine.isHex b) && b != cfg.textEnd1 && b != cfg.textEnd2 && b != cfg.textCstok

/-- The constraints of R10 on the parameters; the rules are total without them. -/
def Config.wellFormed (cfg : Config) : Bool :=
  decide (2 ≤ cfg.C) && decide (cfg.C ≤ 65535)
    && cfg.textStart != cfg.binSync1
    && decide (cfg.textCstok ≤ cfg.textMaxChar)
    && cfg.freeOfTextTokens cfg.textStart
    && cfg.freeOfTextTokens cfg.binSync1

/-- The byte condition of an operation's row (R79): an operation that fails it is selected by no byte. -/
def Instr.wellFormed (cfg : Config) : Instr → Bool
  | .startText => true
  | .startBin => cfg.binSync1 != cfg.textStart
  | .idleSkip b => b != cfg.textStart && b != cfg.binSync1
  | .txtNoise b => decide (cfg.textMaxChar < b)
  | .txtCstok => decide (cfg.textCstok ≤ cfg.textMaxChar)
  | .txtOvf b => decide (b ≤ cfg.textMaxChar) && b != cfg.textCstok
  | .txtAppend b => decide (b ≤ cfg.textMaxChar) && b != cfg.textCstok
  | .txtHex1 _ => true
  | .txtHex1Bad b => !(Machine.isHex b)
  | .txtHex2 _ => true
  | .txtHex2Bad b => !(Machine.isHex b)
  | .txtEnd1 => true
  | .txtEnd1Bad b => b != cfg.textEnd1
  | .txtEnd2Bad b => b != cfg.textEnd2
  | .txtEnd2Ok => true
  | .txtEnd2Ckfail => true
  | .binSync2 => true
  | .binSync2Bad b => b != cfg.binSync2
  | .binLen0 _ => true
  | .binLen1Ovf _ => true
  | .binLen1Zero => true
  | .binLen1 _ => true
  | .binPayOvf _ => true
  | .binPayLast _ => true
  | .binPay _ => true
  | .binCka _ => true
  | .binCkaBad _ => true
  | .binCkbOk _ => true
  | .binCkbBad _ => true
  | .abort => true
  | .reset => true

end Sys2Proof
end

