-- ==== Sys2Proof/Decode.lean ====
section
/-! DEFINITION. Which operation an event performs (spec 30_encoding.md R78, R79), the event that spells an
operation, the condition under which a row of the opcode table is selected, and the table itself with the
decoder the spec reads from it (R85). No event is refused: every byte has a meaning in every state (R70,
R81). -/

namespace Sys2Proof

open Machine

/-! ## Decode -/

/-- Step 2 of the decode order: the tests of the current state (R79). -/
def decodeInState (s : State) (b : Byte) : Instr :=
  match s.session.state with
  | .waitForStart => .idleSkip b
  | .expectPayloadOrChecksumTok =>
    if isNoise s b then .txtNoise b
    else if isCstok s b then .txtCstok
    else if bufFull s then .txtOvf b
    else .txtAppend b
  | .expectChecksumHex1 => if isHex b then .txtHex1 (hexVal b) else .txtHex1Bad b
  | .expectChecksumHex2 => if isHex b then .txtHex2 (hexVal b) else .txtHex2Bad b
  | .expectEnd1 => if isEnd1 s b then .txtEnd1 else .txtEnd1Bad b
  | .expectEnd2 =>
    if !isEnd2 s b then .txtEnd2Bad b
    else if xorOk s then .txtEnd2Ok
    else .txtEnd2Ckfail
  | .expectSync2 => if isBSync2 s b then .binSync2 else .binSync2Bad b
  | .expectLength =>
    if s.session.wrCnt == 0 then .binLen0 b
    else if lenOver s (decodedLength s b) then .binLen1Ovf b
    else if decodedLength s b == 0 then .binLen1Zero
    else .binLen1 b
  | .expectPayload =>
    if bufFull s then .binPayOvf b
    else if payDone s then .binPayLast b
    else .binPay b
  | .expectCheckA => if ckaOk s b then .binCka b else .binCkaBad b
  | .expectCheckB => if ckbOk s b then .binCkbOk b else .binCkbBad b

/-- The operation a `FEED(b)` performs: the start-token test first, where it is enabled (R79). -/
def decodeFeed (s : State) (b : Byte) : Instr :=
  if startEnabled s && isTStart s b then .startText
  else if startEnabled s && isBSync1 s b then .startBin
  else decodeInState s b

/-- The operation an event performs. -/
def decode (s : State) : Event → Instr
  | .feed b => decodeFeed s b
  | .abort => .abort
  | .reset => .reset

/-! ## Encode -/

/-- The event that spells an operation (R79, R85): a row with a parameter names the parameter's byte, a
hex digit is spelled by R75, BIN.LEN1.ZERO is the byte 0x00. -/
def encode (cfg : Config) : Instr → Event
  | .startText => .feed cfg.textStart
  | .startBin => .feed cfg.binSync1
  | .idleSkip b => .feed b
  | .txtNoise b => .feed b
  | .txtCstok => .feed cfg.textCstok
  | .txtOvf b => .feed b
  | .txtAppend b => .feed b
  | .txtHex1 h => .feed (hexDigit h)
  | .txtHex1Bad b => .feed b
  | .txtHex2 h => .feed (hexDigit h)
  | .txtHex2Bad b => .feed b
  | .txtEnd1 => .feed cfg.textEnd1
  | .txtEnd1Bad b => .feed b
  | .txtEnd2Bad b => .feed b
  | .txtEnd2Ok => .feed cfg.textEnd2
  | .txtEnd2Ckfail => .feed cfg.textEnd2
  | .binSync2 => .feed cfg.binSync2
  | .binSync2Bad b => .feed b
  | .binLen0 b => .feed b
  | .binLen1Ovf b => .feed b
  | .binLen1Zero => .feed 0x00
  | .binLen1 b => .feed b
  | .binPayOvf b => .feed b
  | .binPayLast b => .feed b
  | .binPay b => .feed b
  | .binCka b => .feed b
  | .binCkaBad b => .feed b
  | .binCkbOk b => .feed b
  | .binCkbBad b => .feed b
  | .abort => .abort
  | .reset => .reset

/-! ## When a row is selected -/

/-- The state in which a step 2 row stands (R79); none for the rows of step 1 and for the other events. -/
def contextOf : Instr → Option FsmState
  | .startText => none
  | .startBin => none
  | .idleSkip _ => some .waitForStart
  | .txtNoise _ => some .expectPayloadOrChecksumTok
  | .txtCstok => some .expectPayloadOrChecksumTok
  | .txtOvf _ => some .expectPayloadOrChecksumTok
  | .txtAppend _ => some .expectPayloadOrChecksumTok
  | .txtHex1 _ => some .expectChecksumHex1
  | .txtHex1Bad _ => some .expectChecksumHex1
  | .txtHex2 _ => some .expectChecksumHex2
  | .txtHex2Bad _ => some .expectChecksumHex2
  | .txtEnd1 => some .expectEnd1
  | .txtEnd1Bad _ => some .expectEnd1
  | .txtEnd2Bad _ => some .expectEnd2
  | .txtEnd2Ok => some .expectEnd2
  | .txtEnd2Ckfail => some .expectEnd2
  | .binSync2 => some .expectSync2
  | .binSync2Bad _ => some .expectSync2
  | .binLen0 _ => some .expectLength
  | .binLen1Ovf _ => some .expectLength
  | .binLen1Zero => some .expectLength
  | .binLen1 _ => some .expectLength
  | .binPayOvf _ => some .expectPayload
  | .binPayLast _ => some .expectPayload
  | .binPay _ => some .expectPayload
  | .binCka _ => some .expectCheckA
  | .binCkaBad _ => some .expectCheckA
  | .binCkbOk _ => some .expectCheckB
  | .binCkbBad _ => some .expectCheckB
  | .abort => none
  | .reset => none

/-- The register condition of a row, the tests above it in its state included (R79). -/
def guardHolds (s : State) : Instr → Bool
  | .startText => startEnabled s
  | .startBin => startEnabled s
  | .idleSkip _ => true
  | .txtNoise _ => true
  | .txtCstok => true
  | .txtOvf _ => s.session.wrCnt == s.cfg.C
  | .txtAppend _ => s.session.wrCnt != s.cfg.C
  | .txtHex1 _ => true
  | .txtHex1Bad _ => true
  | .txtHex2 _ => true
  | .txtHex2Bad _ => true
  | .txtEnd1 => true
  | .txtEnd1Bad _ => true
  | .txtEnd2Bad _ => true
  | .txtEnd2Ok => s.session.xorAcc == 0
  | .txtEnd2Ckfail => s.session.xorAcc != 0
  | .binSync2 => true
  | .binSync2Bad _ => true
  | .binLen0 _ => s.session.wrCnt == 0
  | .binLen1Ovf b => s.session.wrCnt != 0 && decide (s.cfg.C < (decodedLength s b).toNat)
  | .binLen1Zero => s.session.wrCnt != 0 && cellByte s 0 == 0
  | .binLen1 b =>
    s.session.wrCnt != 0 && decide (1 ≤ (decodedLength s b).toNat)
      && decide ((decodedLength s b).toNat ≤ s.cfg.C)
  | .binPayOvf _ => s.session.wrCnt == s.cfg.C
  | .binPayLast _ =>
    s.session.wrCnt != s.cfg.C && s.session.wrCnt + 1 == s.session.expLen.toNat + 2
  | .binPay _ =>
    s.session.wrCnt != s.cfg.C && s.session.wrCnt + 1 != s.session.expLen.toNat + 2
  | .binCka b => b == s.session.acc1
  | .binCkaBad b => b != s.session.acc1
  | .binCkbOk b => b == s.session.acc2
  | .binCkbBad b => b != s.session.acc2
  | .abort => true
  | .reset => true

/-- Step 1 takes the event: the start-token test is enabled and the byte is a start byte (R78, R79). -/
def startTaken (s : State) : Event → Bool
  | .feed b => startEnabled s && (b == s.cfg.textStart || b == s.cfg.binSync1)
  | .abort => false
  | .reset => false

/-- The row of an operation is the one selected when its event arrives (R79). -/
def selects (s : State) (i : Instr) : Bool :=
  match contextOf i with
  | some c => s.session.state == c && guardHolds s i && !startTaken s (encode s.cfg i)
  | none => guardHolds s i

/-! ## The opcode table as data -/

/-- One row of the opcode table (R85). -/
structure Row where
  /-- `fields.context`. -/
  contexts : List FsmState
  /-- `fields.start_test`. -/
  startTest : Bool
  /-- `fields.priority`: lower is tested first. -/
  priority : Nat
  /-- `fields.byte` and `fields.guard`; a catch-all row has no byte condition of its own. -/
  holds : State → Byte → Bool
  /-- The operation, given the byte. -/
  instr : Byte → Instr

/-- The contexts of the two start rows (R85). -/
def startContexts : List FsmState :=
  [.waitForStart, .expectPayloadOrChecksumTok, .expectChecksumHex1, .expectChecksumHex2,
    .expectEnd1, .expectEnd2]

/-- The rows of the start-token test and of `WaitForStart`. -/
def startRows : List Row :=
  [⟨startContexts, true, 0, fun s b => b == s.cfg.textStart, fun _ => .startText⟩,
   ⟨startContexts, true, 1, fun s b => b == s.cfg.binSync1 && b != s.cfg.textStart, fun _ => .startBin⟩,
   ⟨[.waitForStart], false, 2, fun _ _ => true, .idleSkip⟩]

/-- The rows of the text track. -/
def textRows : List Row :=
  [⟨[.expectPayloadOrChecksumTok], false, 2, fun s b => decide (s.cfg.textMaxChar < b), .txtNoise⟩,
   ⟨[.expectPayloadOrChecksumTok], false, 3, fun s b => b == s.cfg.textCstok, fun _ => .txtCstok⟩,
   ⟨[.expectPayloadOrChecksumTok], false, 4, fun s _ => s.session.wrCnt == s.cfg.C, .txtOvf⟩,
   ⟨[.expectPayloadOrChecksumTok], false, 5, fun s _ => decide (s.session.wrCnt < s.cfg.C), .txtAppend⟩,
   ⟨[.expectChecksumHex1], false, 2, fun _ b => isHex b, fun b => .txtHex1 (hexVal b)⟩,
   ⟨[.expectChecksumHex1], false, 3, fun _ _ => true, .txtHex1Bad⟩,
   ⟨[.expectChecksumHex2], false, 2, fun _ b => isHex b, fun b => .txtHex2 (hexVal b)⟩,
   ⟨[.expectChecksumHex2], false, 3, fun _ _ => true, .txtHex2Bad⟩,
   ⟨[.expectEnd1], false, 2, fun s b => b == s.cfg.textEnd1, fun _ => .txtEnd1⟩,
   ⟨[.expectEnd1], false, 3, fun _ _ => true, .txtEnd1Bad⟩,
   ⟨[.expectEnd2], false, 2, fun s b => b != s.cfg.textEnd2, .txtEnd2Bad⟩,
   ⟨[.expectEnd2], false, 3, fun s b => b == s.cfg.textEnd2 && s.session.xorAcc == 0,
     fun _ => .txtEnd2Ok⟩,
   ⟨[.expectEnd2], false, 4, fun s b => b == s.cfg.textEnd2 && s.session.xorAcc != 0,
     fun _ => .txtEnd2Ckfail⟩]

/-- The rows of the binary track. -/
def binaryRows : List Row :=
  [⟨[.expectSync2], false, 2, fun s b => b == s.cfg.binSync2, fun _ => .binSync2⟩,
   ⟨[.expectSync2], false, 3, fun _ _ => true, .binSync2Bad⟩,
   ⟨[.expectLength], false, 2, fun s _ => s.session.wrCnt == 0, .binLen0⟩,
   ⟨[.expectLength], false, 3, fun s b => s.session.wrCnt == 1
      && decide (s.cfg.C < (cellByte s 0).toNat + 256 * b.toNat), .binLen1Ovf⟩,
   ⟨[.expectLength], false, 4, fun s b => s.session.wrCnt == 1 && cellByte s 0 == 0x00 && b == 0x00,
     fun _ => .binLen1Zero⟩,
   ⟨[.expectLength], false, 5, fun s b => s.session.wrCnt == 1
      && decide (1 ≤ (cellByte s 0).toNat + 256 * b.toNat)
      && decide ((cellByte s 0).toNat + 256 * b.toNat ≤ s.cfg.C), .binLen1⟩,
   ⟨[.expectPayload], false, 2, fun s _ => s.session.wrCnt == s.cfg.C, .binPayOvf⟩,
   ⟨[.expectPayload], false, 3, fun s _ => decide (s.session.wrCnt < s.cfg.C)
      && s.session.wrCnt + 1 == s.session.expLen.toNat + 2, .binPayLast⟩,
   ⟨[.expectPayload], false, 4, fun s _ => decide (s.session.wrCnt < s.cfg.C)
      && s.session.wrCnt + 1 != s.session.expLen.toNat + 2, .binPay⟩,
   ⟨[.expectCheckA], false, 2, fun s b => b == s.session.acc1, .binCka⟩,
   ⟨[.expectCheckA], false, 3, fun _ _ => true, .binCkaBad⟩,
   ⟨[.expectCheckB], false, 2, fun s b => b == s.session.acc2, .binCkbOk⟩,
   ⟨[.expectCheckB], false, 3, fun _ _ => true, .binCkbBad⟩]

/-- The 29 `FEED` rows of the opcode table, in the table's order (R85). -/
def opcodeRows : List Row := startRows ++ (textRows ++ binaryRows)

/-- The row of least priority number, the earlier one where two are equal (R85). -/
def leastPriority : List Row → Option Row
  | [] => none
  | r :: rest =>
    match leastPriority rest with
    | none => some r
    | some q => if q.priority < r.priority then some q else some r

/-- The decoder R85 describes: of the rows whose context and condition hold, the one tested first. -/
def tableDecode (s : State) (b : Byte) : Option Instr :=
  (leastPriority (opcodeRows.filter fun r =>
    r.contexts.contains s.session.state && r.holds s b)).map fun r => r.instr b

/-! ## A table word on its own -/

/-- A word of the opcode table gives the byte and not the context that selects the row (R85). This is the
context of the row that names the byte by a single compare (mask 0xFF), the earliest in the table where
two rows do, and `WaitForStart` for a byte that no row names (DESIGN CHOICE: log entry 8). -/
def tableContext (b : Byte) (s : State) : State :=
  if isTStart s b || isBSync1 s b then
    { s with session := { s.session with state := .waitForStart } }
  else if isCstok s b then
    { s with session := { s.session with state := .expectPayloadOrChecksumTok, proto := .text } }
  else if isEnd1 s b then
    { s with session := { s.session with state := .expectEnd1, proto := .text } }
  else if isEnd2 s b then
    { s with session := { s.session with state := .expectEnd2, proto := .text, xorAcc := 0 } }
  else if isBSync2 s b then
    { s with session := { s.session with state := .expectSync2, proto := .binary } }
  else if b == 0x00 then
    { s with session := { s.session with
        state := .expectLength, proto := .binary, wrCnt := 1
        buf := writeCell s.session.buf 0 0x00 } }
  else { s with session := { s.session with state := .waitForStart } }

/-- The event of a table word: one byte, numbered as the table numbers its bits (R70, R85). -/
def tableEvent (nbits w : Nat) : Option Event :=
  if nbits = 0 ∨ 256 ≤ w then none else some (.feed (BitVec.ofNat 8 w))

/-- The operation the decoder reads from a table word under the reference configuration, in the context
of `tableContext` (log entry 8). -/
def decodeTableWord (nbits w : Nat) : Option Instr :=
  (tableEvent nbits w).map (decode (tableContext (BitVec.ofNat 8 w) State.reset))

end Sys2Proof
end

