-- ==== Sys2Proof/Machine/Binary.lean ====
section
/-! DEFINITION. The thirteen operations of the binary track (spec 42_binary_track.md R141 to R153). The
appends of the length bytes are the general `Append`, so that R157 (capacities below 2) holds too. -/

namespace Sys2Proof.Machine

/-- BIN.SYNC2 (R141): the byte is neither appended nor summed. -/
def execBinSync2 (s : State) : Host.Outcome State Fault Refusal :=
  armed s (goto .expectLength s.session)

/-- BIN.SYNC2.BAD (R142): the byte is not tested as a start token. -/
def execBinSync2Bad (_b : Byte) (s : State) : Host.Outcome State Fault Refusal :=
  aborted .syncMismatch s

/-- BIN.LEN0 (R143). -/
def execBinLen0 (b : Byte) (s : State) : Host.Outcome State Fault Refusal :=
  appending b (sum b) s

/-- BIN.LEN1 (R144). -/
def execBinLen1 (b : Byte) (s : State) : Host.Outcome State Fault Refusal :=
  appending b (fun ses => goto .expectPayload { sum b ses with expLen := decodedLength s b }) s

/-- BIN.LEN1.ZERO (R145, 90_conflicts.md C3): the payload is already complete. -/
def execBinLen1Zero (s : State) : Host.Outcome State Fault Refusal :=
  appending 0x00 (fun ses => goto .expectCheckA { sum 0x00 ses with expLen := 0x0000 }) s

/-- BIN.LEN1.OVF (R146): the byte is appended and summed before the test aborts; `exp_len` holds. -/
def execBinLen1Ovf (b : Byte) (s : State) : Host.Outcome State Fault Refusal :=
  appending b (fun ses => raiseAbort .lengthOverflow (sum b ses)) s

/-- BIN.PAY (R147). -/
def execBinPay (b : Byte) (s : State) : Host.Outcome State Fault Refusal :=
  appending b (sum b) s

/-- BIN.PAY.LAST (R148). -/
def execBinPayLast (b : Byte) (s : State) : Host.Outcome State Fault Refusal :=
  appending b (fun ses => goto .expectCheckA (sum b ses)) s

/-- BIN.PAY.OVF (R149): the overflow branch of `Append`; the byte is not summed. -/
def execBinPayOvf (_b : Byte) (s : State) : Host.Outcome State Fault Refusal :=
  aborted .bufferOverflow s

/-- BIN.CKA (R150): the byte is neither appended nor summed. -/
def execBinCka (_b : Byte) (s : State) : Host.Outcome State Fault Refusal :=
  armed s (goto .expectCheckB s.session)

/-- BIN.CKA.BAD (R151). -/
def execBinCkaBad (_b : Byte) (s : State) : Host.Outcome State Fault Refusal :=
  aborted .checksumMismatch s

/-- BIN.CKB.OK (R152): deliver `buf[2 .. exp_len + 1]`; every register but `state` holds. -/
def execBinCkbOk (_b : Byte) (s : State) : Host.Outcome State Fault Refusal :=
  delivering .frameBinary 2 s.session.expLen.toNat s

/-- BIN.CKB.BAD (R153). -/
def execBinCkbBad (_b : Byte) (s : State) : Host.Outcome State Fault Refusal :=
  aborted .checksumMismatch s

end Sys2Proof.Machine
end

