-- ==== Sys2Proof/Machine/Events.lean ====
section
/-! DEFINITION. The two events without a byte, `ABORT` (spec 43_effects_and_events.md R176) and `RESET`
(70_reset_and_hazards.md R230), and the cause label of each operation that aborts (60_exceptions.md
R201). -/

namespace Sys2Proof.Machine

/-- ABORT (R176): the state change of the silent abort, caused from outside; no effect is emitted. -/
def execAbort (s : State) : Host.Outcome State Fault Refusal :=
  .next (commit s (raiseAbort .timeout s.session) [])

/-- RESET (R230): every register at its reset value; the buffer keeps its bytes; no effect. -/
def execReset (s : State) : Host.Outcome State Fault Refusal :=
  .next (commit s { Session.reset with buf := s.session.buf } [])

/-- The cause label of an operation that aborts the frame in progress (R201); a label only, never
stored and never output (R200). -/
def abortCauseOf : Instr → Option AbortCause
  | .txtNoise _ => some .invalidCharacter
  | .txtHex1Bad _ => some .invalidCharacter
  | .txtHex2Bad _ => some .invalidCharacter
  | .txtOvf _ => some .bufferOverflow
  | .binPayOvf _ => some .bufferOverflow
  | .txtEnd1Bad _ => some .terminatorMismatch
  | .txtEnd2Bad _ => some .terminatorMismatch
  | .txtEnd2Ckfail => some .checksumMismatch
  | .binCkaBad _ => some .checksumMismatch
  | .binCkbBad _ => some .checksumMismatch
  | .binLen1Ovf _ => some .lengthOverflow
  | .binSync2Bad _ => some .syncMismatch
  | .abort => some .timeout
  | .startText => none
  | .startBin => none
  | .idleSkip _ => none
  | .txtCstok => none
  | .txtAppend _ => none
  | .txtHex1 _ => none
  | .txtHex2 _ => none
  | .txtEnd1 => none
  | .txtEnd2Ok => none
  | .binSync2 => none
  | .binLen0 _ => none
  | .binLen1Zero => none
  | .binLen1 _ => none
  | .binPayLast _ => none
  | .binPay _ => none
  | .binCka _ => none
  | .binCkbOk _ => none
  | .reset => none

end Sys2Proof.Machine
end

