-- ==== Sys2Proof/Machine/Start.lean ====
section
/-! DEFINITION. Idle scanning and the two start operations (spec 40_start_detect.md R101 to R103). A
meaning is the pseudocode of its rule; whether a byte selects it is `decode`'s matter (R79). -/

namespace Sys2Proof.Machine

/-- IDLE.SKIP (R101): nothing is written and nothing is emitted, `ArmTimeout` included. -/
def execIdleSkip (_b : Byte) (s : State) : Host.Outcome State Fault Refusal :=
  .next (commit s s.session [])

/-- START.TEXT (R102): the other track's registers and the buffer are left alone (R36). -/
def execStartText (s : State) : Host.Outcome State Fault Refusal :=
  armed s { s.session with
    wrCnt := 0, xorAcc := 0x00, proto := .text, state := .expectPayloadOrChecksumTok }

/-- START.BIN (R103): the other track's register, `exp_len` and the buffer are left alone (R36). -/
def execStartBin (s : State) : Host.Outcome State Fault Refusal :=
  armed s { s.session with
    wrCnt := 0, acc1 := 0x00, acc2 := 0x00, proto := .binary, state := .expectSync2 }

end Sys2Proof.Machine
end

