-- ==== Sys2Proof/Machine/Text.lean ====
section
/-! DEFINITION. The thirteen operations of the text track (spec 41_text_track.md R110 to R122). -/

namespace Sys2Proof.Machine

/-- TXT.NOISE (R110). -/
def execTxtNoise (_b : Byte) (s : State) : Host.Outcome State Fault Refusal :=
  aborted .invalidCharacter s

/-- TXT.CSTOK (R111): the token is neither appended nor folded in. -/
def execTxtCstok (s : State) : Host.Outcome State Fault Refusal :=
  armed s (goto .expectChecksumHex1 s.session)

/-- TXT.OVF (R112): the overflow branch of `Append`. -/
def execTxtOvf (_b : Byte) (s : State) : Host.Outcome State Fault Refusal :=
  aborted .bufferOverflow s

/-- TXT.APPEND (R113). -/
def execTxtAppend (b : Byte) (s : State) : Host.Outcome State Fault Refusal :=
  appending b (absorb b) s

/-- TXT.HEX1 (R114): the digit goes into bits 7 to 4. -/
def execTxtHex1 (h : Nibble) (s : State) : Host.Outcome State Fault Refusal :=
  armed s (goto .expectChecksumHex2 (absorb (highNibble h) s.session))

/-- TXT.HEX1.BAD (R115). -/
def execTxtHex1Bad (_b : Byte) (s : State) : Host.Outcome State Fault Refusal :=
  aborted .invalidCharacter s

/-- TXT.HEX2 (R116): the digit goes into bits 3 to 0; no validity decision is taken here. -/
def execTxtHex2 (h : Nibble) (s : State) : Host.Outcome State Fault Refusal :=
  armed s (goto .expectEnd1 (absorb (lowNibble h) s.session))

/-- TXT.HEX2.BAD (R117). -/
def execTxtHex2Bad (_b : Byte) (s : State) : Host.Outcome State Fault Refusal :=
  aborted .invalidCharacter s

/-- TXT.END1 (R118). -/
def execTxtEnd1 (s : State) : Host.Outcome State Fault Refusal :=
  armed s (goto .expectEnd2 s.session)

/-- TXT.END1.BAD (R119). -/
def execTxtEnd1Bad (_b : Byte) (s : State) : Host.Outcome State Fault Refusal :=
  aborted .terminatorMismatch s

/-- TXT.END2.BAD (R122): the checksum is not consulted. -/
def execTxtEnd2Bad (_b : Byte) (s : State) : Host.Outcome State Fault Refusal :=
  aborted .terminatorMismatch s

/-- TXT.END2.OK (R120): deliver `buf[0 .. wr_cnt - 1]`; every register but `state` holds. -/
def execTxtEnd2Ok (s : State) : Host.Outcome State Fault Refusal :=
  delivering .frameText 0 s.session.wrCnt s

/-- TXT.END2.CKFAIL (R121). -/
def execTxtEnd2Ckfail (s : State) : Host.Outcome State Fault Refusal :=
  aborted .checksumMismatch s

end Sys2Proof.Machine
end

