-- ==== Sys2Proof/Machine/Dispatch.lean ====
section
/-! DEFINITION. One operation on one state: an arm for each row of spec/opcode_table.json. -/

namespace Sys2Proof.Machine

def exec (i : Instr) (s : State) : Host.Outcome State Fault Refusal :=
  match i with
  -- start detection, 40_start_detect.md
  | .startText => Sys2Proof.Machine.execStartText s
  | .startBin => Sys2Proof.Machine.execStartBin s
  | .idleSkip b => Sys2Proof.Machine.execIdleSkip b s
  -- text track, 41_text_track.md
  | .txtNoise b => Sys2Proof.Machine.execTxtNoise b s
  | .txtCstok => Sys2Proof.Machine.execTxtCstok s
  | .txtOvf b => Sys2Proof.Machine.execTxtOvf b s
  | .txtAppend b => Sys2Proof.Machine.execTxtAppend b s
  | .txtHex1 h => Sys2Proof.Machine.execTxtHex1 h s
  | .txtHex1Bad b => Sys2Proof.Machine.execTxtHex1Bad b s
  | .txtHex2 h => Sys2Proof.Machine.execTxtHex2 h s
  | .txtHex2Bad b => Sys2Proof.Machine.execTxtHex2Bad b s
  | .txtEnd1 => Sys2Proof.Machine.execTxtEnd1 s
  | .txtEnd1Bad b => Sys2Proof.Machine.execTxtEnd1Bad b s
  | .txtEnd2Bad b => Sys2Proof.Machine.execTxtEnd2Bad b s
  | .txtEnd2Ok => Sys2Proof.Machine.execTxtEnd2Ok s
  | .txtEnd2Ckfail => Sys2Proof.Machine.execTxtEnd2Ckfail s
  -- binary track, 42_binary_track.md
  | .binSync2 => Sys2Proof.Machine.execBinSync2 s
  | .binSync2Bad b => Sys2Proof.Machine.execBinSync2Bad b s
  | .binLen0 b => Sys2Proof.Machine.execBinLen0 b s
  | .binLen1Ovf b => Sys2Proof.Machine.execBinLen1Ovf b s
  | .binLen1Zero => Sys2Proof.Machine.execBinLen1Zero s
  | .binLen1 b => Sys2Proof.Machine.execBinLen1 b s
  | .binPayOvf b => Sys2Proof.Machine.execBinPayOvf b s
  | .binPayLast b => Sys2Proof.Machine.execBinPayLast b s
  | .binPay b => Sys2Proof.Machine.execBinPay b s
  | .binCka b => Sys2Proof.Machine.execBinCka b s
  | .binCkaBad b => Sys2Proof.Machine.execBinCkaBad b s
  | .binCkbOk b => Sys2Proof.Machine.execBinCkbOk b s
  | .binCkbBad b => Sys2Proof.Machine.execBinCkbBad b s
  -- events without a byte, 43_effects_and_events.md and 70_reset_and_hazards.md
  | .abort => Sys2Proof.Machine.execAbort s
  | .reset => Sys2Proof.Machine.execReset s

end Sys2Proof.Machine
end

