-- ==== Sys2Proof/Machine/Cycle.lean ====
section
/-! DEFINITION. One event (spec 00_scope.md R12, R13): decode it in the Session as it stands, then perform
the operation. -/

namespace Sys2Proof.Machine

/-- Perform one event: the operation it selects in this state (R79), on this state. -/
def performEvent (e : Event) (s : State) : Host.Outcome State Fault Refusal :=
  exec (decode s e) s

/-- The state in which the next event is the byte of a table word and the Session stands where that word
names its row (log entry 8). -/
def placeWord (s : State) (nbits w : Nat) : State :=
  match tableEvent nbits w with
  | none => s
  | some e => { tableContext (BitVec.ofNat 8 w) s with input := e :: s.input }

end Sys2Proof.Machine
end

