-- ==== Sys2Proof/Machine/Step.lean ====
section
/-! DEFINITION. One step of the machine: the oldest event the environment has delivered, or none. -/

namespace Sys2Proof.Machine

/-- One step (R12): take the oldest event and perform it; with no event the Session holds (R214). -/
def step (s : State) : Host.Outcome State Fault Refusal :=
  match takeEvent s with
  | none => .next (holdIdle s)
  | some p => performEvent p.1 p.2

/-- `s` with the instruction of a table word as what the next step performs (log entry 8). -/
def State.withFetchWord (s : State) (nbits w : Nat) : State := placeWord s nbits w

end Sys2Proof.Machine
end

