-- ==== Sys2Proof/Machine/Ports.lean ====
section
/-! DEFINITION. The port binding, a refinement of the event-level machine that adds no behaviour (spec
00_scope.md R5): the sampling of the inputs on a clock edge (43_effects_and_events.md R181, R182,
60_exceptions.md R206), the registered outputs (R183), the read port (R184) and the debug port
(60_exceptions.md R213). -/

namespace Sys2Proof.Machine

/-! ## Inputs and the clock edge -/

/-- The inputs sampled on a rising edge of `clk` (R181). -/
structure PortIn where
  rst : Bool
  abort : Bool
  rxValid : Bool
  rxData : Byte
  deriving DecidableEq, Repr

/-- The events an edge performs, in order: `rst` wins over everything, `abort` comes before the byte
(R182, R206). -/
def edgeEvents (p : PortIn) : List Event :=
  if p.rst then [.reset]
  else (if p.abort then [.abort] else []) ++ (if p.rxValid then [.feed p.rxData] else [])

/-- Perform events one after the other. -/
def performAll : List Event → State → Host.Outcome State Fault Refusal
  | [], s => .next s
  | e :: rest, s =>
    match performEvent e s with
    | .next t => performAll rest t
    | .fault f => .fault f
    | .refused r => .refused r

/-- A rising edge of `clk` (R182). With no input high the Session holds and the outputs go low (R183). -/
def clockEdge (p : PortIn) (s : State) : Host.Outcome State Fault Refusal :=
  performAll (edgeEvents p) (holdIdle s)

/-! ## Registered outputs: what they show in the cycle after the edge that gave this state (R183) -/

/-- `arm_timeout` (R181). -/
def armTimeoutPin (s : State) : Bool :=
  s.effects.any fun e => match e with
    | .armTimeout _ => true
    | .frameText _ _ => false
    | .frameBinary _ _ => false

/-- `sink_text` (R181). -/
def sinkTextPin (s : State) : Bool :=
  s.effects.any fun e => match e with
    | .armTimeout _ => false
    | .frameText _ _ => true
    | .frameBinary _ _ => false

/-- `sink_bin` (R181). -/
def sinkBinPin (s : State) : Bool :=
  s.effects.any fun e => match e with
    | .armTimeout _ => false
    | .frameText _ _ => false
    | .frameBinary _ _ => true

/-- The length and first index of a frame effect; none for `ArmTimeout`. -/
def deliveredView : Effect → Option (Nat × Nat)
  | .armTimeout _ => none
  | .frameText len _ => some (len, 0)
  | .frameBinary len _ => some (len, 2)

/-- `sink_len`: valid while `sink_text` or `sink_bin` is high, and for a length that 16 bits can say
(R181, 93_implementation_defined.md U8); none stands for "not valid" (log entry 10). -/
def sinkLenPin (s : State) : Option (BitVec 16) :=
  match s.effects.findSome? deliveredView with
  | some v => if v.1 < 65536 then some (BitVec.ofNat 16 v.1) else none
  | none => none

/-- `sink_base`: 0 with `sink_text`, 2 with `sink_bin`; none while neither is high (R181). -/
def sinkBasePin (s : State) : Option (BitVec 2) :=
  (s.effects.findSome? deliveredView).map fun v => BitVec.ofNat 2 v.2

/-! ## Read port (R184) -/

/-- The least number of bits that counts `n` values: `ceil(log2(n))` (R27, R50). -/
def ceilLog2 (n : Nat) : Nat :=
  ((List.range (n + 1)).find? fun w => decide (n ≤ 2 ^ w)).getD n

/-- `AW` (R50). -/
def addrWidth (cfg : Config) : Nat := ceilLog2 cfg.C

/-- `WC` (R27). -/
def countWidth (cfg : Config) : Nat := ceilLog2 (cfg.C + 1)

/-- What the read port shows at an index: an unspecified byte for a cell never written and for an index
outside the buffer (R184). Reading changes nothing. -/
def readPort (s : State) (i : Nat) : Byte :=
  if i < s.cfg.C then cellByte s i else Config.beyondByte s.powerUp i

/-- `rd_data` for `rd_addr` (R184). -/
def rdData (s : State) (addr : BitVec (addrWidth s.cfg)) : Byte := readPort s addr.toNat

/-! ## Debug port (R213) -/

/-- The code of a `state` value (R21). -/
def FsmState.code : FsmState → BitVec 4
  | .waitForStart => 0
  | .expectPayloadOrChecksumTok => 1
  | .expectChecksumHex1 => 2
  | .expectChecksumHex2 => 3
  | .expectEnd1 => 4
  | .expectEnd2 => 5
  | .expectSync2 => 8
  | .expectLength => 9
  | .expectPayload => 10
  | .expectCheckA => 11
  | .expectCheckB => 12

/-- The code of a `proto` value (R23). -/
def Proto.code : Proto → BitVec 2
  | .undetermined => 0
  | .text => 1
  | .binary => 2

/-- `dbg_state` (R213). -/
def dbgState (s : State) : BitVec 4 := s.session.state.code

/-- `dbg_proto` (R213). -/
def dbgProto (s : State) : BitVec 2 := s.session.proto.code

/-- `dbg_xor` (R213). -/
def dbgXor (s : State) : Byte := s.session.xorAcc

/-- `dbg_acc1` (R213). -/
def dbgAcc1 (s : State) : Byte := s.session.acc1

/-- `dbg_acc2` (R213). -/
def dbgAcc2 (s : State) : Byte := s.session.acc2

/-- `dbg_explen` (R213). -/
def dbgExplen (s : State) : Half := s.session.expLen

/-- `dbg_wrcnt` (R213), `WC` bits. -/
def dbgWrcnt (s : State) : BitVec (countWidth s.cfg) := BitVec.ofNat _ s.session.wrCnt

end Sys2Proof.Machine
end

