-- ==== Sys2Proof/Machine/Frames.lean ====
section
/-! DEFINITION. The two frame formats as streams: the checksums a frame builder computes and the
pseudo-instructions `TEXTFRAME` and `BINFRAME` (spec 30_encoding.md R71 to R74, R84). -/

namespace Sys2Proof.Machine

/-- The text checksum `X`: the XOR of the payload bytes (R73). -/
def textChecksum (p : List Byte) : Byte := p.foldl (· ^^^ ·) 0x00

/-- The payload row of the text frame format (R71): what a byte can be and still be stored. -/
def textPayloadByte (cfg : Config) (b : Byte) : Bool :=
  decide (b ≤ cfg.textMaxChar) && b != cfg.textStart && b != cfg.binSync1 && b != cfg.textCstok

/-- A payload that `TEXTFRAME` may be given (R84). -/
def textPayload (cfg : Config) (p : List Byte) : Bool :=
  decide (p.length ≤ cfg.C) && p.all (textPayloadByte cfg)

/-- A text frame with the checksum digits `h1`, `h2`, right or wrong (R71). -/
def textFrameWith (cfg : Config) (p : List Byte) (h1 h2 : Nibble) : List Byte :=
  cfg.textStart :: (p ++ [cfg.textCstok, hexDigit h1, hexDigit h2, cfg.textEnd1, cfg.textEnd2])

/-- `TEXTFRAME(p)` (R84): the frame with the checksum of R73, high nibble first. -/
def textFrame (cfg : Config) (p : List Byte) : List Byte :=
  textFrameWith cfg p ((textChecksum p).extractLsb' 4 4) ((textChecksum p).extractLsb' 0 4)

/-- The two length bytes of a payload of `n` bytes, low byte first (R72). -/
def lengthBytes (n : Nat) : List Byte := [BitVec.ofNat 8 n, BitVec.ofNat 8 (n / 256)]

/-- The bytes the binary checksum covers: the length bytes and the payload (R74). -/
def summedBytes (q : List Byte) : List Byte := lengthBytes q.length ++ q

/-- The binary checksum `(A, B)` as the running sum computes it (R74, R140). -/
def runningSums (d : List Byte) : Byte × Byte := d.foldl runningSum (0x00, 0x00)

/-- The weighted sum of R74's closed form: the first byte counts as often as there are bytes. -/
def weightedSum : List Byte → Nat
  | [] => 0
  | d :: rest => (rest.length + 1) * d.toNat + weightedSum rest

/-- A binary frame with the checksum bytes `a`, `b`, right or wrong (R72). -/
def binFrameWith (cfg : Config) (q : List Byte) (a b : Byte) : List Byte :=
  cfg.binSync1 :: cfg.binSync2 :: (summedBytes q ++ [a, b])

/-- `BINFRAME(q)` (R84). -/
def binFrame (cfg : Config) (q : List Byte) : List Byte :=
  binFrameWith cfg q (runningSums (summedBytes q)).1 (runningSums (summedBytes q)).2

/-- A stream as the events that feed it, left to right (R83). -/
def feeds (bs : List Byte) : List Event := bs.map .feed

end Sys2Proof.Machine
end

