-- ==== Sys2Proof/Safety.lean ====
section
/-! DEFINITION. The terms the statements use: runs with their effects, the two tracks, the successor
relation and the read and write sets of the operations, and the invariants of the Session (spec
10_state.md R21, R22, R34, R35). -/

namespace Sys2Proof.Machine

/-! ## Runs -/

/-- `k` steps from `s`: the last state and the effects of each step, or none if a step stops. -/
def trace : Nat → State → Option (State × List (List Effect))
  | 0, s => some (s, [])
  | k + 1, s =>
    match step s with
    | .next t => (trace k t).map fun r => (r.1, t.effects :: r.2)
    | .fault _ => none
    | .refused _ => none

/-- A frame effect (R171, R172). -/
def Effect.isFrame : Effect → Bool
  | .armTimeout _ => false
  | .frameText _ _ => true
  | .frameBinary _ _ => true

/-- An `ArmTimeout` (R170). -/
def Effect.isArm (e : Effect) : Bool := !e.isFrame

/-! ## Tracks -/

/-- The five states of the text track (R21). -/
def FsmState.inTextTrack : FsmState → Bool
  | .waitForStart => false
  | .expectPayloadOrChecksumTok => true
  | .expectChecksumHex1 => true
  | .expectChecksumHex2 => true
  | .expectEnd1 => true
  | .expectEnd2 => true
  | .expectSync2 => false
  | .expectLength => false
  | .expectPayload => false
  | .expectCheckA => false
  | .expectCheckB => false

/-- The five states of the binary track (R21). -/
def FsmState.inBinaryTrack : FsmState → Bool
  | .waitForStart => false
  | .expectPayloadOrChecksumTok => false
  | .expectChecksumHex1 => false
  | .expectChecksumHex2 => false
  | .expectEnd1 => false
  | .expectEnd2 => false
  | .expectSync2 => true
  | .expectLength => true
  | .expectPayload => true
  | .expectCheckA => true
  | .expectCheckB => true

/-- The states a `FEED` can lead to from a state: the second column of R22's table. -/
def FsmState.successors : FsmState → List FsmState
  | .waitForStart => [.waitForStart, .expectPayloadOrChecksumTok, .expectSync2]
  | .expectPayloadOrChecksumTok =>
    [.expectPayloadOrChecksumTok, .expectChecksumHex1, .waitForStart, .expectSync2]
  | .expectChecksumHex1 =>
    [.expectChecksumHex2, .waitForStart, .expectPayloadOrChecksumTok, .expectSync2]
  | .expectChecksumHex2 => [.expectEnd1, .waitForStart, .expectPayloadOrChecksumTok, .expectSync2]
  | .expectEnd1 => [.expectEnd2, .waitForStart, .expectPayloadOrChecksumTok, .expectSync2]
  | .expectEnd2 => [.waitForStart, .expectPayloadOrChecksumTok, .expectSync2]
  | .expectSync2 => [.expectLength, .waitForStart]
  | .expectLength => [.expectLength, .expectPayload, .expectCheckA, .waitForStart]
  | .expectPayload => [.expectPayload, .expectCheckA, .waitForStart]
  | .expectCheckA => [.expectCheckB, .waitForStart]
  | .expectCheckB => [.waitForStart]

/-! ## Write sets -/

/-- The columns of R34's table, true where the row says `w` or `rw`. -/
structure WriteSet where
  state : Bool
  proto : Bool
  xorAcc : Bool
  acc1 : Bool
  acc2 : Bool
  expLen : Bool
  wrCnt : Bool
  buf : Bool
  deriving DecidableEq, Repr

/-- A row of R34 that writes `state` only. -/
def WriteSet.stateOnly : WriteSet := ⟨true, false, false, false, false, false, false, false⟩

/-- The write set of an operation: its row of R34. -/
def writeSet : Instr → WriteSet
  | .startText => ⟨true, true, true, false, false, false, true, false⟩
  | .startBin => ⟨true, true, false, true, true, false, true, false⟩
  | .idleSkip _ => ⟨false, false, false, false, false, false, false, false⟩
  | .txtNoise _ => .stateOnly
  | .txtCstok => .stateOnly
  | .txtOvf _ => .stateOnly
  | .txtAppend _ => ⟨false, false, true, false, false, false, true, true⟩
  | .txtHex1 _ => ⟨true, false, true, false, false, false, false, false⟩
  | .txtHex1Bad _ => .stateOnly
  | .txtHex2 _ => ⟨true, false, true, false, false, false, false, false⟩
  | .txtHex2Bad _ => .stateOnly
  | .txtEnd1 => .stateOnly
  | .txtEnd1Bad _ => .stateOnly
  | .txtEnd2Bad _ => .stateOnly
  | .txtEnd2Ok => .stateOnly
  | .txtEnd2Ckfail => .stateOnly
  | .binSync2 => .stateOnly
  | .binSync2Bad _ => .stateOnly
  | .binLen0 _ => ⟨false, false, false, true, true, false, true, true⟩
  | .binLen1Ovf _ => ⟨true, false, false, true, true, false, true, true⟩
  | .binLen1Zero => ⟨true, false, false, true, true, true, true, true⟩
  | .binLen1 _ => ⟨true, false, false, true, true, true, true, true⟩
  | .binPayOvf _ => .stateOnly
  | .binPayLast _ => ⟨true, false, false, true, true, false, true, true⟩
  | .binPay _ => ⟨false, false, false, true, true, false, true, true⟩
  | .binCka _ => .stateOnly
  | .binCkaBad _ => .stateOnly
  | .binCkbOk _ => .stateOnly
  | .binCkbBad _ => .stateOnly
  | .abort => .stateOnly
  | .reset => ⟨true, true, true, true, true, true, true, false⟩

/-- After `t`, cell `a` reads `b` and every other cell reads as before (R52). -/
def StoresOnly (s t : State) (a : Nat) (b : Byte) : Prop :=
  ∀ c, readCell t.session.buf c = if c = a then some b else readCell s.session.buf c

/-! ## Invariants -/

/-- The bytes the frame in progress has put into the buffer: `buf[0 .. wr_cnt - 1]` (R54). -/
def written (s : State) : List Byte := (List.range s.session.wrCnt).map (cellByte s)

/-- The invariants of the Session (R35), with what R26, R28 and R59 add. I-1 and I-4 say nothing of one
state: there is one `state`, one `wr_cnt` and one `buf` by construction, and R34's write sets say where
the accumulators are cleared. -/
structure Inv (s : State) : Prop where
  /-- The buffer is in canonical form. -/
  canonical : Memory.wf s.session.buf = true
  /-- Only cells of the buffer are written (R52). -/
  inside : ∀ c ∈ s.session.buf, c.1 < s.cfg.C
  /-- I-2: `wr_cnt` never exceeds `C`. -/
  cursor : s.session.wrCnt ≤ s.cfg.C
  /-- Every byte below the cursor has been written (R59). -/
  cells : ∀ a < s.session.wrCnt, (readCell s.session.buf a).isSome = true
  /-- `exp_len` passed the capacity test (R26). -/
  length : s.session.expLen.toNat ≤ s.cfg.C
  /-- I-3, text half. -/
  textMode : s.session.state.inTextTrack = true → s.session.proto = .text
  /-- I-3, binary half. -/
  binaryMode : s.session.state.inBinaryTrack = true → s.session.proto = .binary
  /-- In `ExpectSync2` the cursor stands where START.BIN left it (R141). -/
  atSync2 : s.session.state = .expectSync2 → s.session.wrCnt = 0
  /-- I-5, `ExpectLength`. -/
  atLength : s.session.state = .expectLength → s.session.wrCnt ≤ 1
  /-- I-5, `ExpectPayload`. -/
  atPayload : s.session.state = .expectPayload →
    2 ≤ s.session.wrCnt ∧ s.session.wrCnt < s.session.expLen.toNat + 2
      ∧ 1 ≤ s.session.expLen.toNat
  /-- I-5, `ExpectCheckA` and `ExpectCheckB`. -/
  atCheck : s.session.state = .expectCheckA ∨ s.session.state = .expectCheckB →
    s.session.wrCnt = s.session.expLen.toNat + 2
  /-- I-6 before a digit is absorbed. -/
  xorLaw : s.session.state = .expectPayloadOrChecksumTok ∨ s.session.state = .expectChecksumHex1 →
    s.session.xorAcc = textChecksum (written s)
  /-- I-6 with the high digit absorbed. With both absorbed, in `ExpectEnd1` and `ExpectEnd2`, I-6 holds of
  every byte for some two digits, so it says nothing of one state. -/
  xorLawHigh : s.session.state = .expectChecksumHex2 →
    ∃ h1 : Nibble, s.session.xorAcc = textChecksum (written s) ^^^ highNibble h1
  /-- I-7. -/
  sumLaw : s.session.state.inBinaryTrack = true →
    (s.session.acc1, s.session.acc2) = runningSums (written s)

/-- How many more bytes a binary frame in progress can absorb at most (R210): two checksum bytes, the
cells left in the buffer, and the second sync byte where it is still awaited. -/
def bytesLeft (s : State) : Nat :=
  match s.session.state with
  | .expectSync2 => s.cfg.C + 3
  | .expectLength => s.cfg.C + 2 - s.session.wrCnt
  | .expectPayload => s.cfg.C + 2 - s.session.wrCnt
  | .expectCheckA => 2
  | .expectCheckB => 1
  | .waitForStart => 0
  | .expectPayloadOrChecksumTok => 0
  | .expectChecksumHex1 => 0
  | .expectChecksumHex2 => 0
  | .expectEnd1 => 0
  | .expectEnd2 => 0

end Sys2Proof.Machine
end

