-- ==== Sys2Proof/Certificates/Slice0/Obligations.lean ====
section
/-! DEFINITION. The statements for the provers. "The order of the two effects" of a delivering step is the
spec's decision D10 and no statement rests on it (R173): such effects are compared up to permutation. A
label of R201 is a label of the operation, never stored: a statement that names one says which label it
is. -/

open Sys2Proof Sys2Proof.Machine

/-! ## The operation rules: when a byte selects the operation, and what the operation does -/

/-- R102, START.TEXT. -/
def Obligations.StartTextRule : Prop :=
  ∀ s : State,
    (∀ b, decode s (.feed b) = .startText ↔
      (s.session.state = .waitForStart ∨ s.session.proto = .text) ∧ b = s.cfg.textStart)
    ∧ exec .startText s = .next { s with
        session := { s.session with
          wrCnt := 0, xorAcc := 0x00, proto := .text, state := .expectPayloadOrChecksumTok }
        effects := [.armTimeout s.cfg.timeoutMs] }

/-- R103, START.BIN. -/
def Obligations.StartBinRule : Prop :=
  ∀ s : State,
    (∀ b, decode s (.feed b) = .startBin ↔
      (s.session.state = .waitForStart ∨ s.session.proto = .text)
        ∧ b ≠ s.cfg.textStart ∧ b = s.cfg.binSync1)
    ∧ exec .startBin s = .next { s with
        session := { s.session with
          wrCnt := 0, acc1 := 0x00, acc2 := 0x00, proto := .binary, state := .expectSync2 }
        effects := [.armTimeout s.cfg.timeoutMs] }

/-- R101, IDLE.SKIP. -/
def Obligations.IdleSkipRule : Prop :=
  ∀ (s : State) (b : Byte),
    (decode s (.feed b) = .idleSkip b ↔
      s.session.state = .waitForStart ∧ b ≠ s.cfg.textStart ∧ b ≠ s.cfg.binSync1)
    ∧ exec (.idleSkip b) s = .next { s with effects := [] }

/-- R110, TXT.NOISE; R111, TXT.CSTOK; R112, TXT.OVF. -/
def Obligations.TextPayloadEndRules : Prop :=
  ∀ (s : State) (b : Byte),
    (decode s (.feed b) = .txtNoise b ↔
      s.session.state = .expectPayloadOrChecksumTok ∧ startTaken s (.feed b) = false
        ∧ s.cfg.textMaxChar.toNat < b.toNat)
    ∧ (decode s (.feed b) = .txtCstok ↔
      s.session.state = .expectPayloadOrChecksumTok ∧ startTaken s (.feed b) = false
        ∧ b.toNat ≤ s.cfg.textMaxChar.toNat ∧ b = s.cfg.textCstok)
    ∧ (decode s (.feed b) = .txtOvf b ↔
      s.session.state = .expectPayloadOrChecksumTok ∧ startTaken s (.feed b) = false
        ∧ b.toNat ≤ s.cfg.textMaxChar.toNat ∧ b ≠ s.cfg.textCstok ∧ s.session.wrCnt = s.cfg.C)
    ∧ exec (.txtNoise b) s = .next { s with
        session := { s.session with state := .waitForStart }
        effects := [.armTimeout s.cfg.timeoutMs] }
    ∧ exec .txtCstok s = .next { s with
        session := { s.session with state := .expectChecksumHex1 }
        effects := [.armTimeout s.cfg.timeoutMs] }
    ∧ exec (.txtOvf b) s = .next { s with
        session := { s.session with state := .waitForStart }
        effects := [.armTimeout s.cfg.timeoutMs] }
    ∧ abortCauseOf (.txtNoise b) = some .invalidCharacter ∧ abortCauseOf .txtCstok = none
    ∧ abortCauseOf (.txtOvf b) = some .bufferOverflow

/-- R113, TXT.APPEND. -/
def Obligations.TextAppendRule : Prop :=
  ∀ (s : State) (b : Byte),
    (s.session.wrCnt ≤ s.cfg.C →
      (decode s (.feed b) = .txtAppend b ↔
        s.session.state = .expectPayloadOrChecksumTok ∧ startTaken s (.feed b) = false
          ∧ b.toNat ≤ s.cfg.textMaxChar.toNat ∧ b ≠ s.cfg.textCstok ∧ s.session.wrCnt < s.cfg.C))
    ∧ (s.session.wrCnt < s.cfg.C →
      ∃ t, exec (.txtAppend b) s = .next t
        ∧ t = { s with session := t.session, effects := [.armTimeout s.cfg.timeoutMs] }
        ∧ t.session = { s.session with
            wrCnt := s.session.wrCnt + 1, xorAcc := s.session.xorAcc ^^^ b, buf := t.session.buf }
        ∧ StoresOnly s t s.session.wrCnt b)

/-- R114, TXT.HEX1; R115, TXT.HEX1.BAD; R116, TXT.HEX2; R117, TXT.HEX2.BAD. A digit of value `h` goes to
bits 7 to 4, then to bits 3 to 0. -/
def Obligations.TextDigitRules : Prop :=
  ∀ (s : State) (b : Byte) (h : Nibble),
    (decode s (.feed b) = .txtHex1 h ↔
      s.session.state = .expectChecksumHex1 ∧ startTaken s (.feed b) = false
        ∧ isHex b = true ∧ h = hexVal b)
    ∧ (decode s (.feed b) = .txtHex1Bad b ↔
      s.session.state = .expectChecksumHex1 ∧ startTaken s (.feed b) = false ∧ isHex b = false)
    ∧ (decode s (.feed b) = .txtHex2 h ↔
      s.session.state = .expectChecksumHex2 ∧ startTaken s (.feed b) = false
        ∧ isHex b = true ∧ h = hexVal b)
    ∧ (decode s (.feed b) = .txtHex2Bad b ↔
      s.session.state = .expectChecksumHex2 ∧ startTaken s (.feed b) = false ∧ isHex b = false)
    ∧ exec (.txtHex1 h) s = .next { s with
        session := { s.session with
          xorAcc := s.session.xorAcc ^^^ BitVec.ofNat 8 (16 * h.toNat), state := .expectChecksumHex2 }
        effects := [.armTimeout s.cfg.timeoutMs] }
    ∧ exec (.txtHex2 h) s = .next { s with
        session := { s.session with
          xorAcc := s.session.xorAcc ^^^ BitVec.ofNat 8 h.toNat, state := .expectEnd1 }
        effects := [.armTimeout s.cfg.timeoutMs] }
    ∧ exec (.txtHex1Bad b) s = .next { s with
        session := { s.session with state := .waitForStart }
        effects := [.armTimeout s.cfg.timeoutMs] }
    ∧ exec (.txtHex2Bad b) s = .next { s with
        session := { s.session with state := .waitForStart }
        effects := [.armTimeout s.cfg.timeoutMs] }
    ∧ abortCauseOf (.txtHex1Bad b) = some .invalidCharacter
    ∧ abortCauseOf (.txtHex2Bad b) = some .invalidCharacter

/-- R118, TXT.END1; R119, TXT.END1.BAD; R121, TXT.END2.CKFAIL; R122, TXT.END2.BAD. -/
def Obligations.TextTerminatorRules : Prop :=
  ∀ (s : State) (b : Byte),
    (decode s (.feed b) = .txtEnd1 ↔
      s.session.state = .expectEnd1 ∧ startTaken s (.feed b) = false ∧ b = s.cfg.textEnd1)
    ∧ (decode s (.feed b) = .txtEnd1Bad b ↔
      s.session.state = .expectEnd1 ∧ startTaken s (.feed b) = false ∧ b ≠ s.cfg.textEnd1)
    ∧ (decode s (.feed b) = .txtEnd2Ckfail ↔
      s.session.state = .expectEnd2 ∧ startTaken s (.feed b) = false ∧ b = s.cfg.textEnd2
        ∧ s.session.xorAcc ≠ 0)
    ∧ (decode s (.feed b) = .txtEnd2Bad b ↔
      s.session.state = .expectEnd2 ∧ startTaken s (.feed b) = false ∧ b ≠ s.cfg.textEnd2)
    ∧ exec .txtEnd1 s = .next { s with
        session := { s.session with state := .expectEnd2 }
        effects := [.armTimeout s.cfg.timeoutMs] }
    ∧ exec (.txtEnd1Bad b) s = .next { s with
        session := { s.session with state := .waitForStart }
        effects := [.armTimeout s.cfg.timeoutMs] }
    ∧ exec .txtEnd2Ckfail s = .next { s with
        session := { s.session with state := .waitForStart }
        effects := [.armTimeout s.cfg.timeoutMs] }
    ∧ exec (.txtEnd2Bad b) s = .next { s with
        session := { s.session with state := .waitForStart }
        effects := [.armTimeout s.cfg.timeoutMs] }
    ∧ abortCauseOf (.txtEnd1Bad b) = some .terminatorMismatch
    ∧ abortCauseOf .txtEnd2Ckfail = some .checksumMismatch
    ∧ abortCauseOf (.txtEnd2Bad b) = some .terminatorMismatch

/-- R120, TXT.END2.OK: the frame carries `buf[0 .. wr_cnt - 1]`. -/
def Obligations.TextDeliveryRule : Prop :=
  ∀ s : State,
    (∀ b, decode s (.feed b) = .txtEnd2Ok ↔
      s.session.state = .expectEnd2 ∧ startTaken s (.feed b) = false ∧ b = s.cfg.textEnd2
        ∧ s.session.xorAcc = 0)
    ∧ (s.session.wrCnt ≤ s.cfg.C →
      ∃ t bytes, exec .txtEnd2Ok s = .next t
        ∧ t = { s with
            session := { s.session with state := .waitForStart }, effects := t.effects }
        ∧ t.effects.Perm
            [.frameText s.session.wrCnt bytes, .armTimeout s.cfg.timeoutMs]
        ∧ bytes.length = s.session.wrCnt
        ∧ ∀ i v, i < s.session.wrCnt → readCell s.session.buf i = some v → bytes[i]? = some v)

/-- The two operations of 42_binary_track.md section 2, BIN.SYNC2 (R141, whose remark that the registers
are still zero is the invariants' matter) and BIN.SYNC2.BAD (R142). The label SyncMismatch is the spec's
own addition (its decision D17; log entry 15). -/
def Obligations.BinSyncRules : Prop :=
  ∀ (s : State) (b : Byte),
    (decode s (.feed b) = .binSync2 ↔
      s.session.state = .expectSync2 ∧ startTaken s (.feed b) = false ∧ b = s.cfg.binSync2)
    ∧ (decode s (.feed b) = .binSync2Bad b ↔
      s.session.state = .expectSync2 ∧ startTaken s (.feed b) = false ∧ b ≠ s.cfg.binSync2)
    ∧ exec .binSync2 s = .next { s with
        session := { s.session with state := .expectLength }
        effects := [.armTimeout s.cfg.timeoutMs] }
    ∧ exec (.binSync2Bad b) s = .next { s with
        session := { s.session with state := .waitForStart }
        effects := [.armTimeout s.cfg.timeoutMs] }
    ∧ abortCauseOf (.binSync2Bad b) = some .syncMismatch

/-- R143, BIN.LEN0, with `Sum(b)` of R140 written out on integers modulo 256. -/
def Obligations.BinLenLowRule : Prop :=
  ∀ (s : State) (b : Byte),
    (decode s (.feed b) = .binLen0 b ↔
      s.session.state = .expectLength ∧ startTaken s (.feed b) = false ∧ s.session.wrCnt = 0)
    ∧ (s.session.wrCnt = 0 → 1 ≤ s.cfg.C →
      ∃ t, exec (.binLen0 b) s = .next t
        ∧ t = { s with session := t.session, effects := [.armTimeout s.cfg.timeoutMs] }
        ∧ t.session = { s.session with
            wrCnt := 1
            acc1 := BitVec.ofNat 8 (s.session.acc1.toNat + b.toNat)
            acc2 := BitVec.ofNat 8
              (s.session.acc2.toNat + (s.session.acc1.toNat + b.toNat) % 256)
            buf := t.session.buf }
        ∧ StoresOnly s t 0 b)

/-- R144, BIN.LEN1; R146, BIN.LEN1.OVF: the low length byte `lo` is in cell 0, `b` is the high one. -/
def Obligations.BinLenHighRules : Prop :=
  ∀ (s : State) (b lo : Byte),
    s.session.wrCnt = 1 → readCell s.session.buf 0 = some lo →
    (decode s (.feed b) = .binLen1 b ↔
      s.session.state = .expectLength ∧ startTaken s (.feed b) = false
        ∧ 1 ≤ lo.toNat + 256 * b.toNat ∧ lo.toNat + 256 * b.toNat ≤ s.cfg.C)
    ∧ (decode s (.feed b) = .binLen1Ovf b ↔
      s.session.state = .expectLength ∧ startTaken s (.feed b) = false
        ∧ s.cfg.C < lo.toNat + 256 * b.toNat)
    ∧ abortCauseOf (.binLen1Ovf b) = some .lengthOverflow
    ∧ (2 ≤ s.cfg.C →
      (∃ t, exec (.binLen1 b) s = .next t
        ∧ t = { s with session := t.session, effects := [.armTimeout s.cfg.timeoutMs] }
        ∧ t.session = { s.session with
            wrCnt := 2
            acc1 := BitVec.ofNat 8 (s.session.acc1.toNat + b.toNat)
            acc2 := BitVec.ofNat 8
              (s.session.acc2.toNat + (s.session.acc1.toNat + b.toNat) % 256)
            expLen := BitVec.ofNat 16 (lo.toNat + 256 * b.toNat)
            state := .expectPayload
            buf := t.session.buf }
        ∧ StoresOnly s t 1 b)
      ∧ (∃ t, exec (.binLen1Ovf b) s = .next t
        ∧ t = { s with session := t.session, effects := [.armTimeout s.cfg.timeoutMs] }
        ∧ t.session = { s.session with
            wrCnt := 2
            acc1 := BitVec.ofNat 8 (s.session.acc1.toNat + b.toNat)
            acc2 := BitVec.ofNat 8
              (s.session.acc2.toNat + (s.session.acc1.toNat + b.toNat) % 256)
            state := .waitForStart
            buf := t.session.buf }
        ∧ StoresOnly s t 1 b))

/-- R145, BIN.LEN1.ZERO (the spec's decision D6, 90_conflicts.md C3): both length bytes are zero and the
payload is already complete. -/
def Obligations.BinLenZeroRule : Prop :=
  ∀ (s : State) (b lo : Byte),
    s.session.wrCnt = 1 → readCell s.session.buf 0 = some lo →
    (decode s (.feed b) = .binLen1Zero ↔
      s.session.state = .expectLength ∧ startTaken s (.feed b) = false ∧ lo = 0x00 ∧ b = 0x00)
    ∧ (2 ≤ s.cfg.C →
      ∃ t, exec .binLen1Zero s = .next t
        ∧ t = { s with session := t.session, effects := [.armTimeout s.cfg.timeoutMs] }
        ∧ t.session = { s.session with
            wrCnt := 2
            acc2 := BitVec.ofNat 8 (s.session.acc2.toNat + s.session.acc1.toNat)
            expLen := 0
            state := .expectCheckA
            buf := t.session.buf }
        ∧ StoresOnly s t 1 0x00)

/-- R147, BIN.PAY; R148, BIN.PAY.LAST. -/
def Obligations.BinPayloadRules : Prop :=
  ∀ (s : State) (b : Byte),
    (s.session.wrCnt ≤ s.cfg.C →
      (decode s (.feed b) = .binPay b ↔
        s.session.state = .expectPayload ∧ startTaken s (.feed b) = false
          ∧ s.session.wrCnt < s.cfg.C ∧ s.session.wrCnt + 1 ≠ s.session.expLen.toNat + 2)
      ∧ (decode s (.feed b) = .binPayLast b ↔
        s.session.state = .expectPayload ∧ startTaken s (.feed b) = false
          ∧ s.session.wrCnt < s.cfg.C ∧ s.session.wrCnt + 1 = s.session.expLen.toNat + 2))
    ∧ (s.session.wrCnt < s.cfg.C →
      (∃ t, exec (.binPay b) s = .next t
        ∧ t = { s with session := t.session, effects := [.armTimeout s.cfg.timeoutMs] }
        ∧ t.session = { s.session with
            wrCnt := s.session.wrCnt + 1
            acc1 := BitVec.ofNat 8 (s.session.acc1.toNat + b.toNat)
            acc2 := BitVec.ofNat 8
              (s.session.acc2.toNat + (s.session.acc1.toNat + b.toNat) % 256)
            buf := t.session.buf }
        ∧ StoresOnly s t s.session.wrCnt b)
      ∧ (∃ t, exec (.binPayLast b) s = .next t
        ∧ t = { s with session := t.session, effects := [.armTimeout s.cfg.timeoutMs] }
        ∧ t.session = { s.session with
            wrCnt := s.session.wrCnt + 1
            acc1 := BitVec.ofNat 8 (s.session.acc1.toNat + b.toNat)
            acc2 := BitVec.ofNat 8
              (s.session.acc2.toNat + (s.session.acc1.toNat + b.toNat) % 256)
            state := .expectCheckA
            buf := t.session.buf }
        ∧ StoresOnly s t s.session.wrCnt b))

/-- R149, BIN.PAY.OVF (the spec's decision D7). -/
def Obligations.BinPayloadOverflowRule : Prop :=
  ∀ (s : State) (b : Byte),
    (decode s (.feed b) = .binPayOvf b ↔
      s.session.state = .expectPayload ∧ startTaken s (.feed b) = false
        ∧ s.session.wrCnt = s.cfg.C)
    ∧ exec (.binPayOvf b) s = .next { s with
        session := { s.session with state := .waitForStart }
        effects := [.armTimeout s.cfg.timeoutMs] }
    ∧ abortCauseOf (.binPayOvf b) = some .bufferOverflow

/-- R150, BIN.CKA; R151, BIN.CKA.BAD; R153, BIN.CKB.BAD. -/
def Obligations.BinChecksumByteRules : Prop :=
  ∀ (s : State) (b : Byte),
    (decode s (.feed b) = .binCka b ↔
      s.session.state = .expectCheckA ∧ startTaken s (.feed b) = false ∧ b = s.session.acc1)
    ∧ (decode s (.feed b) = .binCkaBad b ↔
      s.session.state = .expectCheckA ∧ startTaken s (.feed b) = false ∧ b ≠ s.session.acc1)
    ∧ (decode s (.feed b) = .binCkbBad b ↔
      s.session.state = .expectCheckB ∧ startTaken s (.feed b) = false ∧ b ≠ s.session.acc2)
    ∧ exec (.binCka b) s = .next { s with
        session := { s.session with state := .expectCheckB }
        effects := [.armTimeout s.cfg.timeoutMs] }
    ∧ exec (.binCkaBad b) s = .next { s with
        session := { s.session with state := .waitForStart }
        effects := [.armTimeout s.cfg.timeoutMs] }
    ∧ exec (.binCkbBad b) s = .next { s with
        session := { s.session with state := .waitForStart }
        effects := [.armTimeout s.cfg.timeoutMs] }
    ∧ abortCauseOf (.binCkaBad b) = some .checksumMismatch
    ∧ abortCauseOf (.binCkbBad b) = some .checksumMismatch

/-- R152, BIN.CKB.OK: the frame carries `buf[2 .. exp_len + 1]`, without the two length bytes (the spec's
decision D9). -/
def Obligations.BinDeliveryRule : Prop :=
  ∀ (s : State) (b : Byte),
    (decode s (.feed b) = .binCkbOk b ↔
      s.session.state = .expectCheckB ∧ startTaken s (.feed b) = false ∧ b = s.session.acc2)
    ∧ (s.session.expLen = 0 ∨ s.session.expLen.toNat + 2 ≤ s.cfg.C →
      ∃ t bytes, exec (.binCkbOk b) s = .next t
        ∧ t = { s with
            session := { s.session with state := .waitForStart }, effects := t.effects }
        ∧ t.effects.Perm
            [.frameBinary s.session.expLen.toNat bytes, .armTimeout s.cfg.timeoutMs]
        ∧ bytes.length = s.session.expLen.toNat
        ∧ ∀ i v, i < s.session.expLen.toNat → readCell s.session.buf (2 + i) = some v →
            bytes[i]? = some v)

/-- R176, ABORT (the spec's decision D11): only `state` changes, and in `WaitForStart` nothing of the
Session does. -/
def Obligations.AbortEventRule : Prop :=
  ∀ s : State,
    decode s .abort = .abort
    ∧ exec .abort s = .next { s with
        session := { s.session with state := .waitForStart }, effects := [] }
    ∧ (s.session.state = .waitForStart → exec .abort s = .next { s with effects := [] })
    ∧ abortCauseOf .abort = some .timeout

/-- R230, RESET (the spec's decision D15): every register at its reset value, every cell kept. -/
def Obligations.ResetEventRule : Prop :=
  ∀ s : State,
    decode s .reset = .reset
    ∧ exec .reset s = .next { s with
        session := {
          state := .waitForStart, proto := .undetermined, xorAcc := 0x00, acc1 := 0x00
          acc2 := 0x00, expLen := 0x0000, wrCnt := 0, buf := s.session.buf }
        effects := [] }

/-- R33, the Session after the first RESET: no cell holds a stated value (the spec's decision D15). -/
def Obligations.SessionAfterReset : Prop :=
  State.reset.session.state = .waitForStart ∧ State.reset.session.proto = .undetermined
    ∧ State.reset.session.xorAcc = 0 ∧ State.reset.session.acc1 = 0
    ∧ State.reset.session.acc2 = 0 ∧ State.reset.session.expLen = 0
    ∧ State.reset.session.wrCnt = 0
    ∧ (∀ a, readCell State.reset.session.buf a = none) ∧ State.reset.effects = []

/-! ## Decode -/

/-- R78: where the start-token test is enabled; with I-3, it is `WaitForStart` and the text track. -/
def Obligations.StartTestEnabledWhere : Prop :=
  ∀ s : State,
    (startEnabled s = true ↔ s.session.state = .waitForStart ∨ s.session.proto = .text)
    ∧ ((s.session.state.inTextTrack = true → s.session.proto = .text) →
       (s.session.state.inBinaryTrack = true → s.session.proto = .binary) →
       (startEnabled s = true ↔
         s.session.state = .waitForStart ∨ s.session.state.inTextTrack = true))

/-- R79: exactly one operation is selected for every event in every state. An event decodes to an
operation exactly when the operation's row has its byte condition, its context and guard hold, and the
event spells it; so decoding what encodes a selected operation gives that operation back, with every
operand at every value. -/
def Obligations.EveryEventSelectsOneRow : Prop :=
  ∀ (s : State) (e : Event) (i : Instr),
    decode s e = i ↔ i.wellFormed s.cfg = true ∧ selects s i = true ∧ encode s.cfg i = e

/-- R85: the decoder read from the opcode table agrees with the decode order, in every state that the
invariants I-2, I-3 and I-5 allow. -/
def Obligations.OpcodeTableDecodesAlike : Prop :=
  ∀ (s : State) (b : Byte),
    s.session.wrCnt ≤ s.cfg.C →
    (s.session.state.inTextTrack = true → s.session.proto = .text) →
    (s.session.state.inBinaryTrack = true → s.session.proto = .binary) →
    (s.session.state = .expectLength → s.session.wrCnt ≤ 1) →
    tableDecode s b = some (decode s (.feed b))

/-- Words written out from the encodings of R6, R75 and R79 in the states they name: `$`, `*`, `5`, a
carriage return, the two sync bytes, a payload byte, and a zero high length byte after a zero low one. The
token bytes are those of the reference configuration, which the spec gives as reference values only
(DESIGN CHOICE and PRESUMED: log entry 1); that 0x35 is a digit and 0x61 is none rests on the hex digit
codes, which the spec takes from general knowledge (PRESUMED: log entry 13). -/
def Obligations.WordsDecodeAsWritten : Prop :=
  ∀ s : State, s.cfg = Config.reference →
    (s.session.state = .waitForStart → decode s (.feed 0x24) = .startText
      ∧ decode s (.feed 0xB5) = .startBin ∧ decode s (.feed 0x2A) = .idleSkip 0x2A)
    ∧ (s.session.state = .expectPayloadOrChecksumTok → s.session.proto = .text →
        s.session.wrCnt = 1 → decode s (.feed 0x2A) = .txtCstok
          ∧ decode s (.feed 0x2C) = .txtAppend 0x2C ∧ decode s (.feed 0x80) = .txtNoise 0x80)
    ∧ (s.session.state = .expectChecksumHex1 → s.session.proto = .text →
        decode s (.feed 0x35) = .txtHex1 5 ∧ decode s (.feed 0x61) = .txtHex1Bad 0x61)
    ∧ (s.session.state = .expectEnd1 → s.session.proto = .text →
        decode s (.feed 0x0D) = .txtEnd1)
    ∧ (s.session.state = .expectSync2 → s.session.proto = .binary →
        decode s (.feed 0x62) = .binSync2 ∧ decode s (.feed 0x24) = .binSync2Bad 0x24)
    ∧ (s.session.state = .expectLength → s.session.proto = .binary → s.session.wrCnt = 1 →
        readCell s.session.buf 0 = some 0x00 →
        decode s (.feed 0x00) = .binLen1Zero ∧ decode s (.feed 0x01) = .binLen1Ovf 0x01)

/-- R75: a byte is a digit exactly when a digit value spells it, and the value is read back. The sixteen
codes are from general knowledge, as R75 says of them (the spec's decision D20; PRESUMED: log entry 13). -/
def Obligations.HexDigitsReadBack : Prop :=
  (∀ h : Nibble, isHex (hexDigit h) = true ∧ hexVal (hexDigit h) = h)
  ∧ ∀ b : Byte,
      (isHex b = true ↔ (0x30 ≤ b.toNat ∧ b.toNat ≤ 0x39) ∨ (0x41 ≤ b.toNat ∧ b.toNat ≤ 0x46))
      ∧ (isHex b = true → hexDigit (hexVal b) = b)
      ∧ (0x30 ≤ b.toNat → b.toNat ≤ 0x39 → (hexVal b).toNat = b.toNat - 0x30)
      ∧ (0x41 ≤ b.toNat → b.toNat ≤ 0x46 → (hexVal b).toNat = b.toNat - 0x41 + 10)

/-- R76: the second length byte is bits 15 to 8, and the length meets `C` as an integer. -/
def Obligations.LengthIsLittleEndian : Prop :=
  ∀ (s : State) (lo hi : Byte), readCell s.session.buf 0 = some lo →
    (decodedLength s hi).toNat = lo.toNat + 256 * hi.toNat
    ∧ (decodedLength s hi).toNat ≤ 65535
    ∧ (lenOver s (decodedLength s hi) = true ↔ s.cfg.C < lo.toNat + 256 * hi.toNat)

/-! ## The step -/

/-- A step performs the operation its oldest event selects, on the state without that event; the
operation is well-formed. -/
def Obligations.StepPerformsSelectedOperation : Prop :=
  ∀ (s : State) (e : Event) (rest : List Event), s.input = e :: rest →
    step s = exec (decode s e) { s with input := rest }
    ∧ (decode s e).wellFormed s.cfg = true

/-- With no event the Session holds and nothing is emitted. -/
def Obligations.StepHoldsWithoutEvents : Prop :=
  ∀ s : State, s.input = [] → step s = .next { s with effects := [] }

/-- No step changes the configuration (R14, R232), and a step takes at most the oldest event. -/
def Obligations.StepKeepsConfiguration : Prop :=
  ∀ s t : State, step s = .next t →
    t.cfg = s.cfg ∧ t.powerUp = s.powerUp ∧ t.input = s.input.tail

/-- From a state that satisfies the invariants a step always answers a next state: the Framer never
fails and never waits. -/
def Obligations.StepNeverStops : Prop :=
  ∀ s : State, Inv s → ∃ t, step s = .next t

/-- R35 (with R26 and R59): every step keeps the invariants. -/
def Obligations.EveryStepKeepsInvariants : Prop :=
  ∀ s t : State, Inv s → step s = .next t → Inv t

/-- The invariants hold after reset. -/
def Obligations.InvariantsAfterReset : Prop := Inv State.reset

/-- R22: the successor relation, in the states that I-3 allows; `ABORT` and `RESET` lead to
`WaitForStart` from any state. -/
def Obligations.SuccessorsOfEachState : Prop :=
  ∀ (s t : State) (e : Event) (rest : List Event),
    s.input = e :: rest → step s = .next t →
    (s.session.state.inTextTrack = true → s.session.proto = .text) →
    (s.session.state.inBinaryTrack = true → s.session.proto = .binary) →
    (match e with
      | .feed _ => t.session.state ∈ s.session.state.successors
      | .abort => t.session.state = .waitForStart
      | .reset => t.session.state = .waitForStart)

/-- R34: an operation changes only what its row says it writes; of the buffer it changes at most the cell
at the cursor. The premise on the operations that append leaves out the overflow branch of `Append`
(R53), which writes `state` only. -/
def Obligations.OperationsWriteOnlyTheirRow : Prop :=
  ∀ (s t : State) (i : Instr), exec i s = .next t →
    ((writeSet i).buf = true → s.session.wrCnt < s.cfg.C) →
    ((writeSet i).state = false → t.session.state = s.session.state)
    ∧ ((writeSet i).proto = false → t.session.proto = s.session.proto)
    ∧ ((writeSet i).xorAcc = false → t.session.xorAcc = s.session.xorAcc)
    ∧ ((writeSet i).acc1 = false → t.session.acc1 = s.session.acc1)
    ∧ ((writeSet i).acc2 = false → t.session.acc2 = s.session.acc2)
    ∧ ((writeSet i).expLen = false → t.session.expLen = s.session.expLen)
    ∧ ((writeSet i).wrCnt = false → t.session.wrCnt = s.session.wrCnt)
    ∧ (∀ a, ((writeSet i).buf = true → a ≠ s.session.wrCnt) →
        readCell t.session.buf a = readCell s.session.buf a)
    ∧ t.cfg = s.cfg ∧ t.powerUp = s.powerUp ∧ t.input = s.input

/-! ## Append, the abort, the effects -/

/-- R53 (the spec's decision D7 in the binary track), for every operation that appends: below the
capacity the byte goes to the cursor and the count rises by one; at `wr_cnt == C` nothing is written and
the step is the abort. -/
def Obligations.AppendChecksBounds : Prop :=
  ∀ (s : State) (i : Instr) (b : Byte),
    (writeSet i).buf = true → encode s.cfg i = .feed b →
    (s.session.wrCnt < s.cfg.C →
      ∃ t, exec i s = .next t ∧ t.session.wrCnt = s.session.wrCnt + 1
        ∧ StoresOnly s t s.session.wrCnt b)
    ∧ (s.session.wrCnt = s.cfg.C →
      exec i s = .next { s with
        session := { s.session with state := .waitForStart }
        effects := [.armTimeout s.cfg.timeoutMs] })

/-- The model's own stops (log entry 9), which no state with the invariants reaches: an append above the
capacity and a delivery of a range that leaves the buffer answer a fault that names the cell. -/
def Obligations.AccessOutsideBufferFaults : Prop :=
  ∀ s : State,
    (∀ i, (writeSet i).buf = true → s.cfg.C < s.session.wrCnt →
      exec i s = .fault (.noSuchCellWrite s.session.wrCnt))
    ∧ (s.cfg.C < s.session.wrCnt →
      exec .txtEnd2Ok s = .fault (.noSuchCellRead (s.session.wrCnt - 1)))
    ∧ (∀ b, s.session.expLen ≠ 0 → s.cfg.C < s.session.expLen.toNat + 2 →
      exec (.binCkbOk b) s = .fault (.noSuchCellRead (s.session.expLen.toNat + 1)))

/-- R157: with a capacity below 2 the length byte that finds the buffer full is the `BufferOverflow`
abort, with nothing written. -/
def Obligations.TinyBuffersAbortInLength : Prop :=
  ∀ (s : State) (b : Byte) (rest : List Event),
    s.input = .feed b :: rest → s.cfg.C < 2 → s.session.wrCnt = s.cfg.C →
    s.session.state = .expectLength → s.session.proto = .binary →
    step s = .next { s with
      session := { s.session with state := .waitForStart }
      effects := [.armTimeout s.cfg.timeoutMs], input := rest }

/-- R200: every operation with an abort cause ends in `WaitForStart` and delivers nothing; but for the
length bytes of BIN.LEN1.OVF (R146) it changes no other register and no cell. -/
def Obligations.AbortsAreSilent : Prop :=
  ∀ (s t : State) (i : Instr) (c : AbortCause),
    abortCauseOf i = some c → exec i s = .next t →
    t.session.state = .waitForStart
    ∧ (∀ e ∈ t.effects, e.isFrame = false)
    ∧ ((∀ b, i ≠ .binLen1Ovf b) →
        t.session = { s.session with state := .waitForStart })

/-- R208: after an abort the very next byte is start-tested, whatever the discarded frame left behind. -/
def Obligations.AbortsResynchronize : Prop :=
  ∀ (s t : State) (i : Instr) (c : AbortCause),
    abortCauseOf i = some c → exec i s = .next t →
    (∀ b, startTaken t (.feed b) = true ↔ b = s.cfg.textStart ∨ b = s.cfg.binSync1)
    ∧ decode t (.feed s.cfg.textStart) = .startText
    ∧ (s.cfg.binSync1 ≠ s.cfg.textStart → decode t (.feed s.cfg.binSync1) = .startBin)

/-- R170: every `FEED` step but IDLE.SKIP emits exactly one `ArmTimeout`, with the configured deadline;
IDLE.SKIP, `ABORT`, `RESET` and a step without event emit nothing, and an `ABORT` in `WaitForStart`
changes nothing. That `ABORT` and `RESET` emit nothing at all is R176 and R230 (the spec's decisions D11
and D15); a step with an empty input is R214 and R182 (decision D13) over the model's own queue (log
entry 6). -/
def Obligations.TimeoutRequestPerByte : Prop :=
  ∀ s t : State, step s = .next t →
    (∀ b rest, s.input = .feed b :: rest → decode s (.feed b) ≠ .idleSkip b →
      t.effects.countP Effect.isArm = 1 ∧ .armTimeout s.cfg.timeoutMs ∈ t.effects)
    ∧ (∀ b rest, s.input = .feed b :: rest → decode s (.feed b) = .idleSkip b → t.effects = [])
    ∧ (∀ rest, s.input = .abort :: rest →
      t.effects = [] ∧ (s.session.state = .waitForStart → t.session = s.session))
    ∧ (∀ rest, s.input = .reset :: rest → t.effects = [])
    ∧ (s.input = [] → t.effects = [])

/-- R171, R172, R175: a `FrameText` comes only from TXT.END2.OK and a `FrameBinary` only from BIN.CKB.OK,
each with the length its operation delivers, and a step emits at most one frame effect. That a
`FrameBinary` carries the cells from 2 on is the spec's decision D9. In a state outside the invariants a
cell of the range may be one never written, which the model reads as one free value each time (DEDUCED:
log entry 4). -/
def Obligations.FramesComeFromDeliveriesOnly : Prop :=
  ∀ (s t : State) (i : Instr), exec i s = .next t →
    t.effects.countP Effect.isFrame ≤ 1
    ∧ (∀ len bytes, .frameText len bytes ∈ t.effects →
        i = .txtEnd2Ok ∧ len = s.session.wrCnt ∧ bytes = (List.range len).map (cellByte s))
    ∧ (∀ len bytes, .frameBinary len bytes ∈ t.effects →
        (∃ b, i = .binCkbOk b) ∧ len = s.session.expLen.toNat
          ∧ bytes = (List.range len).map fun k => cellByte s (2 + k))

/-- R59: in a state that satisfies the invariants every delivered byte was written by an append; no free
value is ever delivered. The range of a binary frame, from cell 2 on, is the spec's decision D9. -/
def Obligations.DeliveredBytesWereWritten : Prop :=
  ∀ s t : State, Inv s → step s = .next t →
    (∀ len bytes, .frameText len bytes ∈ t.effects →
      bytes.length = len ∧ ∀ i < len, readCell s.session.buf i = bytes[i]?)
    ∧ (∀ len bytes, .frameBinary len bytes ∈ t.effects →
      bytes.length = len ∧ ∀ i < len, readCell s.session.buf (2 + i) = bytes[i]?)

/-! ## The buffer -/

/-- Canonical buffers that read alike are equal: contents and data are the same thing. -/
def Obligations.CanonicalBuffersAreEqual : Prop :=
  ∀ m n : Memory, Memory.wf m = true → Memory.wf n = true →
    (∀ a, readCell m a = readCell n a) → m = n

/-! ## Frames -/

/-- R140, R74: the running sums are the sum and the weighted sum of the bytes, modulo 256. -/
def Obligations.RunningSumsClosedForm : Prop :=
  ∀ d : List Byte,
    (runningSums d).1 = BitVec.ofNat 8 (d.map BitVec.toNat).sum
    ∧ (runningSums d).2 = BitVec.ofNat 8 (weightedSum d)

/-- R128, text acceptance: fed where the start-token test is enabled, `TEXTFRAME(p)` is delivered once,
by its last byte, and every byte emits one `ArmTimeout`. The digits are spelled by the codes of R75
(PRESUMED: log entry 13). -/
def Obligations.TextFrameIsDelivered : Prop :=
  ∀ (s : State) (p : List Byte) (rest : List Event),
    s.cfg.wellFormed = true → textPayload s.cfg p = true →
    (s.session.state = .waitForStart ∨ s.session.proto = .text) →
    s.input = feeds (textFrame s.cfg p) ++ rest →
    ∃ t last, trace (p.length + 6) s =
        some (t, List.replicate (p.length + 5) [.armTimeout s.cfg.timeoutMs] ++ [last])
      ∧ last.Perm [.frameText p.length p, .armTimeout s.cfg.timeoutMs]
      ∧ t.session.state = .waitForStart ∧ t.input = rest

/-- R127: a text frame with the digits `h1`, `h2` is delivered when they spell the XOR of the payload, and
dropped without a frame effect otherwise (95_test_vectors.md section 9 items 2 and 4). The digits are
spelled by the codes of R75 (PRESUMED: log entry 13). -/
def Obligations.TextChecksumDecidesDelivery : Prop :=
  ∀ (s : State) (p : List Byte) (h1 h2 : Nibble) (rest : List Event),
    s.cfg.wellFormed = true → textPayload s.cfg p = true →
    (s.session.state = .waitForStart ∨ s.session.proto = .text) →
    s.input = feeds (textFrameWith s.cfg p h1 h2) ++ rest →
    ∃ t last, trace (p.length + 6) s =
        some (t, List.replicate (p.length + 5) [.armTimeout s.cfg.timeoutMs] ++ [last])
      ∧ t.session.state = .waitForStart ∧ t.input = rest
      ∧ (BitVec.ofNat 8 (16 * h1.toNat + h2.toNat) = textChecksum p →
          last.Perm [.frameText p.length p, .armTimeout s.cfg.timeoutMs])
      ∧ (BitVec.ofNat 8 (16 * h1.toNat + h2.toNat) ≠ textChecksum p →
          last = [.armTimeout s.cfg.timeoutMs])

/-- R156, binary acceptance: fed where the start-token test is enabled, `BINFRAME(q)` with
`L + 2 <= C` is delivered once, by its last byte, with no condition on the payload bytes. The empty payload
rests on the spec's decision D6, the delivered range on D9. -/
def Obligations.BinaryFrameIsDelivered : Prop :=
  ∀ (s : State) (q : List Byte) (rest : List Event),
    s.cfg.wellFormed = true → q.length + 2 ≤ s.cfg.C →
    (s.session.state = .waitForStart ∨ s.session.proto = .text) →
    s.input = feeds (binFrame s.cfg q) ++ rest →
    ∃ t last, trace (q.length + 6) s =
        some (t, List.replicate (q.length + 5) [.armTimeout s.cfg.timeoutMs] ++ [last])
      ∧ last.Perm [.frameBinary q.length q, .armTimeout s.cfg.timeoutMs]
      ∧ t.session.state = .waitForStart ∧ t.input = rest

/-- 95_test_vectors.md section 9 item 4: a binary frame with a wrong checksum byte is dropped without a
frame effect; a wrong first byte ends it one byte early. -/
def Obligations.BinaryChecksumDecidesDelivery : Prop :=
  ∀ (s : State) (q : List Byte) (a b : Byte) (rest : List Event),
    s.cfg.wellFormed = true → q.length + 2 ≤ s.cfg.C →
    (s.session.state = .waitForStart ∨ s.session.proto = .text) →
    s.input = feeds (binFrameWith s.cfg q a b) ++ rest →
    (a ≠ (runningSums (summedBytes q)).1 →
      ∃ t, trace (q.length + 5) s =
          some (t, List.replicate (q.length + 5) [.armTimeout s.cfg.timeoutMs])
        ∧ t.session.state = .waitForStart ∧ t.input = .feed b :: rest)
    ∧ (a = (runningSums (summedBytes q)).1 → b ≠ (runningSums (summedBytes q)).2 →
      ∃ t, trace (q.length + 6) s =
          some (t, List.replicate (q.length + 6) [.armTimeout s.cfg.timeoutMs])
        ∧ t.session.state = .waitForStart ∧ t.input = rest)

/-- 95_test_vectors.md section 9 item 7, with R146: after the two sync bytes and a declared length above
the capacity the Framer is idle with two bytes counted, and the next byte is start-tested. -/
def Obligations.OverlongLengthDropsFrame : Prop :=
  ∀ (s : State) (lo hi : Byte) (rest : List Event),
    s.cfg.wellFormed = true →
    (s.session.state = .waitForStart ∨ s.session.proto = .text) →
    s.cfg.C < lo.toNat + 256 * hi.toNat →
    s.input = feeds [s.cfg.binSync1, s.cfg.binSync2, lo, hi] ++ rest →
    ∃ t, trace 4 s = some (t, List.replicate 4 [.armTimeout s.cfg.timeoutMs])
      ∧ t.session.state = .waitForStart ∧ t.session.wrCnt = 2
      ∧ t.session.expLen = s.session.expLen ∧ t.input = rest

/-- R155: a binary frame whose declared length passes the length test but does not fit beside its two
length bytes is dropped by the payload byte that finds the buffer full (the spec's decision D7). -/
def Obligations.PayloadBeyondBufferIsDropped : Prop :=
  ∀ (s : State) (n : Nat) (q : List Byte) (rest : List Event),
    s.cfg.wellFormed = true →
    (s.session.state = .waitForStart ∨ s.session.proto = .text) →
    n ≤ s.cfg.C → s.cfg.C < n + 2 → q.length = s.cfg.C - 1 →
    s.input = feeds (s.cfg.binSync1 :: s.cfg.binSync2 :: (lengthBytes n ++ q)) ++ rest →
    ∃ t, trace (s.cfg.C + 3) s =
        some (t, List.replicate (s.cfg.C + 3) [.armTimeout s.cfg.timeoutMs])
      ∧ t.session.state = .waitForStart ∧ t.session.wrCnt = s.cfg.C ∧ t.input = rest

/-- R210: a binary frame in progress ends by itself: fed enough bytes, at most `C + 3` after
`BIN_SYNC1`, the Framer is back in `WaitForStart`. -/
def Obligations.BinaryFrameEndsWithinBound : Prop :=
  ∀ (s : State) (bs : List Byte) (rest : List Event),
    Inv s → s.session.state.inBinaryTrack = true →
    s.input = feeds bs ++ rest → bytesLeft s ≤ bs.length →
    bytesLeft s ≤ s.cfg.C + 3
    ∧ ∃ k t effs, 1 ≤ k ∧ k ≤ bytesLeft s ∧ trace k s = some (t, effs)
      ∧ t.session.state = .waitForStart

/-! ## What one track or one frame cannot learn from another -/

/-- R239, R34: in the text track no step sees the binary registers: the effects and everything else are
the same whatever `acc1`, `acc2` and `exp_len` hold, and a text operation leaves them alone. -/
def Obligations.TextTrackIgnoresBinaryRegisters : Prop :=
  ∀ (s t : State) (b : Byte) (rest : List Event) (a1 a2 : Byte) (n : Half),
    s.input = .feed b :: rest → s.session.state.inTextTrack = true → s.session.proto = .text →
    b ≠ s.cfg.binSync1 → step s = .next t →
    step { s with session := { s.session with acc1 := a1, acc2 := a2, expLen := n } }
      = .next { t with session := { t.session with acc1 := a1, acc2 := a2, expLen := n } }

/-- R34: in the binary track no step sees the text accumulator. -/
def Obligations.BinaryTrackIgnoresTextAccumulator : Prop :=
  ∀ (s t : State) (b : Byte) (rest : List Event) (x : Byte),
    s.input = .feed b :: rest → s.session.state.inBinaryTrack = true →
    s.session.proto = .binary → step s = .next t →
    step { s with session := { s.session with xorAcc := x } }
      = .next { t with session := { t.session with xorAcc := x } }

/-- R32: what a finished frame leaves in the registers and in the buffer changes no later effect: two idle
Framers with the same configuration, given the same input, emit the same effects step by step. -/
def Obligations.RetainedStateIsUnobservable : Prop :=
  ∀ (s t : State) (k : Nat),
    Inv s → Inv t → s.cfg = t.cfg → s.input = t.input →
    s.session.state = .waitForStart → t.session.state = .waitForStart →
    (trace k s).map Prod.snd = (trace k t).map Prod.snd

/-! ## The port binding -/

/-- R182, R206 (the spec's decisions D12, D13): an edge performs what the steps over its events perform:
`RESET` alone where `rst` is high, else `ABORT` before the byte; with no input high it is a step without
event. -/
def Obligations.ClockEdgeIsItsSteps : Prop :=
  ∀ (s : State) (p : PortIn), s.input = [] →
    (p.rst = true → clockEdge p s = step { s with input := [.reset] })
    ∧ (p.rst = false → p.abort = false → p.rxValid = true →
        clockEdge p s = step { s with input := [.feed p.rxData] })
    ∧ (p.rst = false → p.abort = true → p.rxValid = false →
        clockEdge p s = step { s with input := [.abort] })
    ∧ (p.rst = false → p.abort = true → p.rxValid = true →
        clockEdge p s = step { s with
          session := { s.session with state := .waitForStart }, input := [.feed p.rxData] })
    ∧ (p.rst = false → p.abort = false → p.rxValid = false → clockEdge p s = step s)

/-- R183 (the spec's decision D13): the registered outputs after an edge show the effects it emitted. -/
def Obligations.OutputPinsShowEffects : Prop :=
  ∀ s t : State, step s = .next t →
    (armTimeoutPin t = true ↔ .armTimeout s.cfg.timeoutMs ∈ t.effects)
    ∧ (sinkTextPin t = true ↔ ∃ len bytes, .frameText len bytes ∈ t.effects)
    ∧ (sinkBinPin t = true ↔ ∃ len bytes, .frameBinary len bytes ∈ t.effects)
    ∧ (∀ len bytes, .frameText len bytes ∈ t.effects → len < 65536 →
        sinkLenPin t = some (BitVec.ofNat 16 len) ∧ sinkBasePin t = some 0)
    ∧ (∀ len bytes, .frameBinary len bytes ∈ t.effects → len < 65536 →
        sinkLenPin t = some (BitVec.ofNat 16 len) ∧ sinkBasePin t = some 2)

/-- R60 (c), R184 (the spec's decision D13, and D9 for the first index 2): after a delivery the read port
shows exactly the delivered bytes. In a state outside the invariants a cell of the range may be one never
written; that the effect and the port then show the same byte is the model's reading, one free value for
every read of the cell (DEDUCED: log entry 4). -/
def Obligations.ReadPortShowsDeliveredFrame : Prop :=
  ∀ s t : State, step s = .next t →
    (∀ len bytes, .frameText len bytes ∈ t.effects →
      bytes = (List.range len).map (readPort t))
    ∧ (∀ len bytes, .frameBinary len bytes ∈ t.effects →
      bytes = (List.range len).map fun i => readPort t (2 + i))

/-- R213 (the spec's decision D16): two states whose debug ports show the same have the same registers,
where the count is one that `WC` bits can hold. -/
def Obligations.DebugPortShowsRegisters : Prop :=
  ∀ s t : State, s.cfg = t.cfg → s.session.wrCnt ≤ s.cfg.C → t.session.wrCnt ≤ t.cfg.C →
    dbgState s = dbgState t → dbgProto s = dbgProto t → dbgXor s = dbgXor t →
    dbgAcc1 s = dbgAcc1 t → dbgAcc2 s = dbgAcc2 t → dbgExplen s = dbgExplen t →
    (dbgWrcnt s).toNat = (dbgWrcnt t).toNat →
    { s.session with buf := [] } = { t.session with buf := [] }

/-! ## A table word as the next instruction -/

/-- The next step after `withFetchWord` performs the operation that `decodeTableWord` reads from the word,
from any state under the reference configuration (log entry 1). That a word is read in the context of the row that
names it is the model's choice (log entry 8). -/
def Obligations.FetchWordRunsTableWord : Prop :=
  ∀ (s : State) (nbits w : Nat) (i : Instr), s.cfg = Config.reference →
    decodeTableWord nbits w = some i →
    step (s.withFetchWord nbits w) =
      exec i { s.withFetchWord nbits w with input := s.input }
end

