-- ==== Sys2Proof/Laws/State.lean ====
section
/-! SUPPORT. One lemma per field per update, true by rfl, so that no later proof unfolds a record
update. -/

namespace Sys2Proof.Laws

open Sys2Proof.Machine

variable (s : State) (ses : Session) (effs : List Effect) (f : FsmState) (b : Byte) (c : AbortCause)

/-! ## `commit`: the end of a step -/

@[simp] theorem commit_cfg : (commit s ses effs).cfg = s.cfg := rfl
@[simp] theorem commit_powerUp : (commit s ses effs).powerUp = s.powerUp := rfl
@[simp] theorem commit_session : (commit s ses effs).session = ses := rfl
@[simp] theorem commit_effects : (commit s ses effs).effects = effs := rfl
@[simp] theorem commit_input : (commit s ses effs).input = s.input := rfl

/-! ## `goto` -/

@[simp] theorem goto_state : (goto f ses).state = f := rfl
@[simp] theorem goto_proto : (goto f ses).proto = ses.proto := rfl
@[simp] theorem goto_xorAcc : (goto f ses).xorAcc = ses.xorAcc := rfl
@[simp] theorem goto_acc1 : (goto f ses).acc1 = ses.acc1 := rfl
@[simp] theorem goto_acc2 : (goto f ses).acc2 = ses.acc2 := rfl
@[simp] theorem goto_expLen : (goto f ses).expLen = ses.expLen := rfl
@[simp] theorem goto_wrCnt : (goto f ses).wrCnt = ses.wrCnt := rfl
@[simp] theorem goto_buf : (goto f ses).buf = ses.buf := rfl

/-- The silent abort is the jump to `WaitForStart` and nothing else, whatever its cause (R200). -/
@[simp] theorem raiseAbort_eq : raiseAbort c ses = goto .waitForStart ses := rfl

/-! ## `absorb` -/

@[simp] theorem absorb_state : (absorb b ses).state = ses.state := rfl
@[simp] theorem absorb_proto : (absorb b ses).proto = ses.proto := rfl
@[simp] theorem absorb_xorAcc : (absorb b ses).xorAcc = ses.xorAcc ^^^ b := rfl
@[simp] theorem absorb_acc1 : (absorb b ses).acc1 = ses.acc1 := rfl
@[simp] theorem absorb_acc2 : (absorb b ses).acc2 = ses.acc2 := rfl
@[simp] theorem absorb_expLen : (absorb b ses).expLen = ses.expLen := rfl
@[simp] theorem absorb_wrCnt : (absorb b ses).wrCnt = ses.wrCnt := rfl
@[simp] theorem absorb_buf : (absorb b ses).buf = ses.buf := rfl

/-! ## `sum` -/

@[simp] theorem sum_state : (sum b ses).state = ses.state := rfl
@[simp] theorem sum_proto : (sum b ses).proto = ses.proto := rfl
@[simp] theorem sum_xorAcc : (sum b ses).xorAcc = ses.xorAcc := rfl
@[simp] theorem sum_acc1 : (sum b ses).acc1 = ses.acc1 + b := rfl
@[simp] theorem sum_acc2 : (sum b ses).acc2 = ses.acc2 + (ses.acc1 + b) := rfl
@[simp] theorem sum_expLen : (sum b ses).expLen = ses.expLen := rfl
@[simp] theorem sum_wrCnt : (sum b ses).wrCnt = ses.wrCnt := rfl
@[simp] theorem sum_buf : (sum b ses).buf = ses.buf := rfl

/-! ## `holdIdle` -/

@[simp] theorem holdIdle_cfg : (holdIdle s).cfg = s.cfg := rfl
@[simp] theorem holdIdle_powerUp : (holdIdle s).powerUp = s.powerUp := rfl
@[simp] theorem holdIdle_session : (holdIdle s).session = s.session := rfl
@[simp] theorem holdIdle_effects : (holdIdle s).effects = [] := rfl
@[simp] theorem holdIdle_input : (holdIdle s).input = s.input := rfl

end Sys2Proof.Laws
end

