-- ==== Sys2Proof/Laws/Memory.lean ====
section
/-! SUPPORT. The frame buffer: reading after writing, the canonical form, and what the reads of a state
depend on. -/

namespace Sys2Proof.Laws

open Sys2Proof.Machine

/-- Reading after a write: the written cell holds the byte, every other cell is as before (R51, R52). -/
theorem readCell_writeCell (m : Memory) (a c : Nat) (v : Byte) :
    readCell (writeCell m a v) c = if c = a then some v else readCell m c := by
  induction m with
  | nil => simp only [writeCell, readCell, eq_comm]
  | cons kw rest ih =>
    obtain ⟨k, w⟩ := kw
    simp only [writeCell]
    by_cases hca : c = a
    · subst hca
      rw [if_pos rfl]
      split_ifs with h1 h2
      · simp [readCell]
      · simp [readCell]
      · simp [readCell, Ne.symm h2, ih]
    · rw [if_neg hca]
      split_ifs with h1 h2
      · simp [readCell, Ne.symm hca]
      · subst h2
        simp [readCell, Ne.symm hca]
      · simp [readCell, ih, hca]

@[simp] theorem readCell_writeCell_self (m : Memory) (a : Nat) (v : Byte) :
    readCell (writeCell m a v) a = some v := by simp [readCell_writeCell]

/-- The indices of a buffer after a write: the old ones and the written one. -/
theorem mem_writeCell {m : Memory} {a : Nat} {v : Byte} {c : Host.Cell}
    (h : c ∈ writeCell m a v) : c.1 = a ∨ c ∈ m := by
  induction m with
  | nil => simp_all [writeCell]
  | cons kw rest ih =>
    obtain ⟨k, w⟩ := kw
    simp only [writeCell] at h
    split_ifs at h with h1 h2
    · rcases List.mem_cons.mp h with h | h
      · exact .inl (by rw [h])
      · exact .inr h
    · rcases List.mem_cons.mp h with h | h
      · exact .inl (by rw [h])
      · exact .inr (List.mem_cons_of_mem _ h)
    · rcases List.mem_cons.mp h with h | h
      · exact .inr (by rw [h]; exact List.mem_cons_self)
      · exact (ih h).imp id (List.mem_cons_of_mem _)

/-- The canonical form of a list with a head: the head is below every later index. -/
theorem wf_cons_iff (k : Nat) (w : Byte) (rest : Memory) :
    Memory.wf ((k, w) :: rest) = true ↔ (∀ c ∈ rest, k < c.1) ∧ Memory.wf rest = true := by
  induction rest generalizing k w with
  | nil => simp [Memory.wf]
  | cons c rest ih =>
    obtain ⟨j, v⟩ := c
    simp only [Memory.wf, Bool.and_eq_true, decide_eq_true_eq, List.mem_cons, forall_eq_or_imp]
    rw [ih]
    constructor
    · rintro ⟨hkj, hj, hw⟩
      exact ⟨⟨hkj, fun c hc => lt_trans hkj (hj c hc)⟩, hj, hw⟩
    · rintro ⟨⟨hkj, -⟩, hj, hw⟩
      exact ⟨hkj, hj, hw⟩

/-- A write keeps the canonical form. -/
theorem wf_writeCell {m : Memory} (a : Nat) (v : Byte) (h : Memory.wf m = true) :
    Memory.wf (writeCell m a v) = true := by
  induction m with
  | nil => rfl
  | cons kw rest ih =>
    obtain ⟨k, w⟩ := kw
    obtain ⟨hk, hr⟩ := (wf_cons_iff k w rest).mp h
    simp only [writeCell]
    split_ifs with h1 h2
    · refine (wf_cons_iff _ _ _).mpr ⟨?_, h⟩
      intro c hc
      rcases List.mem_cons.mp hc with rfl | hc
      · exact h1
      · exact lt_trans h1 (hk c hc)
    · subst h2
      exact (wf_cons_iff _ _ _).mpr ⟨hk, hr⟩
    · refine (wf_cons_iff _ _ _).mpr ⟨?_, ih hr⟩
      intro c hc
      rcases mem_writeCell hc with h3 | hc
      · omega
      · exact hk c hc

/-- The buffer after reset is canonical. -/
theorem wf_reset : Memory.wf State.reset.session.buf = true := rfl

/-- A written cell reads as its byte. -/
theorem cellByte_of_readCell {s : State} {a : Nat} {v : Byte} (h : readCell s.session.buf a = some v) :
    cellByte s a = v := by simp [cellByte, h]

/-- A range that lies in the buffer reads as its cells, in order. -/
theorem readRange_inside (s : State) (a n : Nat) (h : n = 0 ∨ a + n ≤ s.cfg.C) :
    readRange s a n = some ((List.range n).map fun i => cellByte s (a + i)) := by
  induction n generalizing a with
  | zero => rfl
  | succ n ih =>
    have ha : a < s.cfg.C := by omega
    simp only [readRange, memRead, ha, if_true]
    rw [ih (a + 1) (by omega)]
    simp [List.range_succ_eq_map, Function.comp_def, Nat.add_assoc, Nat.add_comm 1]

/-- A range that reads at all lies in the buffer, and reads as its cells. -/
theorem readRange_some {s : State} {a n : Nat} {vs : List Byte} (h : readRange s a n = some vs) :
    (n = 0 ∨ a + n ≤ s.cfg.C) ∧ vs = (List.range n).map fun i => cellByte s (a + i) := by
  have hin : n = 0 ∨ a + n ≤ s.cfg.C := by
    induction n generalizing a vs with
    | zero => exact .inl rfl
    | succ n ih =>
      simp only [readRange, memRead] at h
      by_cases ha : a < s.cfg.C
      · simp only [ha, if_true] at h
        cases hr : readRange s (a + 1) n with
        | none => simp [hr] at h
        | some ws =>
          have := ih hr
          omega
      · simp [ha] at h
  exact ⟨hin, by rw [readRange_inside s a n hin] at h; exact (Option.some.inj h).symm⟩

end Sys2Proof.Laws
end

