-- ==== Sys2Proof/Laws/Ops.lean ====
section
/-! SUPPORT. Each shared operation once: everything it can answer. -/

namespace Sys2Proof.Laws

open Sys2Proof.Machine

/-- The Session after `Append(b)` has stored its byte (R53). -/
def appended (s : State) (b : Byte) : Session :=
  { s.session with
    buf := writeCell s.session.buf s.session.wrCnt b
    wrCnt := s.session.wrCnt + 1 }

@[simp] theorem appended_state (s : State) (b : Byte) :
    (appended s b).state = s.session.state := rfl
@[simp] theorem appended_proto (s : State) (b : Byte) :
    (appended s b).proto = s.session.proto := rfl
@[simp] theorem appended_xorAcc (s : State) (b : Byte) :
    (appended s b).xorAcc = s.session.xorAcc := rfl
@[simp] theorem appended_acc1 (s : State) (b : Byte) : (appended s b).acc1 = s.session.acc1 := rfl
@[simp] theorem appended_acc2 (s : State) (b : Byte) : (appended s b).acc2 = s.session.acc2 := rfl
@[simp] theorem appended_expLen (s : State) (b : Byte) :
    (appended s b).expLen = s.session.expLen := rfl
@[simp] theorem appended_wrCnt (s : State) (b : Byte) :
    (appended s b).wrCnt = s.session.wrCnt + 1 := rfl
@[simp] theorem appended_buf (s : State) (b : Byte) :
    (appended s b).buf = writeCell s.session.buf s.session.wrCnt b := rfl

/-- Below the capacity, a step that appends stores its byte and goes on. -/
theorem appending_below {s : State} (b : Byte) (k : Session → Session)
    (h : s.session.wrCnt < s.cfg.C) :
    appending b k s = armed s (k (appended s b)) := by
  simp [appending, append, h, Nat.ne_of_lt h, appended]

/-- At the capacity, a step that appends is the overflow abort. -/
theorem appending_full {s : State} (b : Byte) (k : Session → Session)
    (h : s.session.wrCnt = s.cfg.C) :
    appending b k s = aborted .bufferOverflow s := by
  simp [appending, append, h]

/-- Everything a step that appends can answer as a next state: the byte stored, or the abort. -/
theorem appending_next {s t : State} {b : Byte} {k : Session → Session}
    (h : appending b k s = .next t) :
    (s.session.wrCnt < s.cfg.C ∧ t = commit s (k (appended s b)) [arm s])
    ∨ (s.session.wrCnt = s.cfg.C ∧ t = commit s (goto .waitForStart s.session) [arm s]) := by
  rcases lt_trichotomy s.session.wrCnt s.cfg.C with hlt | heq | hgt
  · rw [appending_below b k hlt] at h
    exact .inl ⟨hlt, (Host.Outcome.next.inj h).symm⟩
  · rw [appending_full b k heq] at h
    exact .inr ⟨heq, (Host.Outcome.next.inj h).symm⟩
  · simp [appending, append, Nat.ne_of_gt hgt, Nat.not_lt_of_gt hgt] at h

/-- A delivery whose range lies in the buffer. -/
theorem delivering_inside {s : State} (frame : Nat → List Byte → Effect) (base n : Nat)
    (h : n = 0 ∨ base + n ≤ s.cfg.C) :
    delivering frame base n s = .next (commit s (goto .waitForStart s.session)
      [frame n ((List.range n).map fun i => cellByte s (base + i)), arm s]) := by
  simp [delivering, readRange_inside s base n h]

/-- Everything a delivery can answer as a next state. -/
theorem delivering_next {s t : State} {frame : Nat → List Byte → Effect} {base n : Nat}
    (h : delivering frame base n s = .next t) :
    (n = 0 ∨ base + n ≤ s.cfg.C) ∧ t = commit s (goto .waitForStart s.session)
      [frame n ((List.range n).map fun i => cellByte s (base + i)), arm s] := by
  cases hr : readRange s base n with
  | none => simp [delivering, hr] at h
  | some vs =>
    obtain ⟨hin, -⟩ := readRange_some hr
    rw [delivering_inside frame base n hin] at h
    exact ⟨hin, (Host.Outcome.next.inj h).symm⟩

/-- A step that arms the timer and does nothing else answers exactly its committed state. -/
theorem armed_next {s t : State} {ses : Session} (h : armed s ses = .next t) :
    t = commit s ses [arm s] := (Host.Outcome.next.inj h).symm

/-- A step that aborts answers exactly the state with `WaitForStart` and the request. -/
theorem aborted_next {s t : State} {c : AbortCause} (h : aborted c s = .next t) :
    t = commit s (goto .waitForStart s.session) [arm s] := (Host.Outcome.next.inj h).symm

end Sys2Proof.Laws
end

