-- ==== Sys2Proof/Laws/PerInstr.lean ====
section
/-! SUPPORT. Statements about every instruction, one lemma per constructor. -/

namespace Sys2Proof.Laws.EncodedEvent

/-- An operation is spelled by one event: `ABORT` and `RESET` by themselves, every other operation by a
`FEED` of one byte that the configuration and the operand determine (spec 30_encoding.md R70). -/
def Statement (i : Instr) : Prop :=
  (i = .abort ∧ ∀ cfg, encode cfg i = .abort) ∨ (i = .reset ∧ ∀ cfg, encode cfg i = .reset)
    ∨ (i ≠ .abort ∧ i ≠ .reset ∧ ∃ byteOf : Config → Byte, ∀ cfg, encode cfg i = .feed (byteOf cfg))

/-- The `FEED` operations meet the statement through the byte that spells them. -/
theorem of_byte {i : Instr} (byteOf : Config → Byte) (ha : i ≠ .abort) (hr : i ≠ .reset)
    (h : ∀ cfg, encode cfg i = .feed (byteOf cfg)) : Statement i :=
  .inr (.inr ⟨ha, hr, byteOf, h⟩)

theorem startText : Statement .startText :=
  of_byte (·.textStart) nofun nofun fun _ => rfl
theorem startBin : Statement .startBin :=
  of_byte (·.binSync1) nofun nofun fun _ => rfl
theorem idleSkip (b : Byte) : Statement (.idleSkip b) :=
  of_byte (fun _ => b) nofun nofun fun _ => rfl
theorem txtNoise (b : Byte) : Statement (.txtNoise b) :=
  of_byte (fun _ => b) nofun nofun fun _ => rfl
theorem txtCstok : Statement .txtCstok :=
  of_byte (·.textCstok) nofun nofun fun _ => rfl
theorem txtOvf (b : Byte) : Statement (.txtOvf b) :=
  of_byte (fun _ => b) nofun nofun fun _ => rfl
theorem txtAppend (b : Byte) : Statement (.txtAppend b) :=
  of_byte (fun _ => b) nofun nofun fun _ => rfl
theorem txtHex1 (h : Nibble) : Statement (.txtHex1 h) :=
  of_byte (fun _ => Machine.hexDigit h) nofun nofun fun _ => rfl
theorem txtHex1Bad (b : Byte) : Statement (.txtHex1Bad b) :=
  of_byte (fun _ => b) nofun nofun fun _ => rfl
theorem txtHex2 (h : Nibble) : Statement (.txtHex2 h) :=
  of_byte (fun _ => Machine.hexDigit h) nofun nofun fun _ => rfl
theorem txtHex2Bad (b : Byte) : Statement (.txtHex2Bad b) :=
  of_byte (fun _ => b) nofun nofun fun _ => rfl
theorem txtEnd1 : Statement .txtEnd1 :=
  of_byte (·.textEnd1) nofun nofun fun _ => rfl
theorem txtEnd1Bad (b : Byte) : Statement (.txtEnd1Bad b) :=
  of_byte (fun _ => b) nofun nofun fun _ => rfl
theorem txtEnd2Bad (b : Byte) : Statement (.txtEnd2Bad b) :=
  of_byte (fun _ => b) nofun nofun fun _ => rfl
theorem txtEnd2Ok : Statement .txtEnd2Ok :=
  of_byte (·.textEnd2) nofun nofun fun _ => rfl
theorem txtEnd2Ckfail : Statement .txtEnd2Ckfail :=
  of_byte (·.textEnd2) nofun nofun fun _ => rfl
theorem binSync2 : Statement .binSync2 :=
  of_byte (·.binSync2) nofun nofun fun _ => rfl
theorem binSync2Bad (b : Byte) : Statement (.binSync2Bad b) :=
  of_byte (fun _ => b) nofun nofun fun _ => rfl
theorem binLen0 (b : Byte) : Statement (.binLen0 b) :=
  of_byte (fun _ => b) nofun nofun fun _ => rfl
theorem binLen1Ovf (b : Byte) : Statement (.binLen1Ovf b) :=
  of_byte (fun _ => b) nofun nofun fun _ => rfl
theorem binLen1Zero : Statement .binLen1Zero :=
  of_byte (fun _ => 0x00) nofun nofun fun _ => rfl
theorem binLen1 (b : Byte) : Statement (.binLen1 b) :=
  of_byte (fun _ => b) nofun nofun fun _ => rfl
theorem binPayOvf (b : Byte) : Statement (.binPayOvf b) :=
  of_byte (fun _ => b) nofun nofun fun _ => rfl
theorem binPayLast (b : Byte) : Statement (.binPayLast b) :=
  of_byte (fun _ => b) nofun nofun fun _ => rfl
theorem binPay (b : Byte) : Statement (.binPay b) :=
  of_byte (fun _ => b) nofun nofun fun _ => rfl
theorem binCka (b : Byte) : Statement (.binCka b) :=
  of_byte (fun _ => b) nofun nofun fun _ => rfl
theorem binCkaBad (b : Byte) : Statement (.binCkaBad b) :=
  of_byte (fun _ => b) nofun nofun fun _ => rfl
theorem binCkbOk (b : Byte) : Statement (.binCkbOk b) :=
  of_byte (fun _ => b) nofun nofun fun _ => rfl
theorem binCkbBad (b : Byte) : Statement (.binCkbBad b) :=
  of_byte (fun _ => b) nofun nofun fun _ => rfl
theorem abort : Statement .abort := .inl ⟨rfl, fun _ => rfl⟩
theorem reset : Statement .reset := .inr (.inl ⟨rfl, fun _ => rfl⟩)

end Sys2Proof.Laws.EncodedEvent
end

