-- ==== Sys2Proof/Tests/Slice0.lean ====
section
/-! SUPPORT. Tests of the model on fixed values, and a witness for the hypotheses of each statement.
Expected results come from the "Example" lines of the operation rules (spec 40 to 43), from the unit
vectors of 95_test_vectors.md, or from hand calculation with the rules. -/

namespace Sys2Proof.Tests

open Sys2Proof.Machine

/-! ## Small states -/

/-- `CFG_SMALL` (R7): the reference tokens with `C = 8`, and a deadline of 5. -/
def small : Config := { Config.reference with textMaxLen := 8, binaryMaxLen := 4, timeoutMs := 5 }

/-- The reference tokens with `C = n`. -/
def sized (n : Nat) : Config := { small with textMaxLen := n, binaryMaxLen := 0 }

/-- A state of `CFG_SMALL` with the given Session. -/
def of (ses : Session) : State :=
  { cfg := small, powerUp := 0, session := ses, effects := [], input := [] }

/-- The text track: state, count, accumulator, buffer. -/
def txt (f : FsmState) (n : Nat) (x : Byte) (m : Memory) : State :=
  of { Session.reset with state := f, proto := .text, wrCnt := n, xorAcc := x, buf := m }

/-- The binary track: state, count, both accumulators, length, buffer. -/
def bin (f : FsmState) (n : Nat) (a c : Byte) (len : Half) (m : Memory) : State :=
  of { Session.reset with
    state := f, proto := .binary, wrCnt := n, acc1 := a, acc2 := c, expLen := len, buf := m }

/-- The idle Session. -/
def idle : State := of Session.reset

/-- Eight written cells. -/
def eight : Memory :=
  [(0, 0x41), (1, 0x42), (2, 0x43), (3, 0x44), (4, 0x45), (5, 0x46), (6, 0x47), (7, 0x48)]

/-- The buffer of `BINFRAME(01 02 03)` (R84). -/
def five : Memory := [(0, 0x03), (1, 0x00), (2, 0x01), (3, 0x02), (4, 0x03)]

/-- The state after one event, if the step has one. -/
def after (s : State) (e : Event) : Option State :=
  match step { s with input := [e] } with
  | .next t => some t
  | .fault _ => none
  | .refused _ => none

/-- What the rules' examples show of a text step. -/
structure TextView where
  state : FsmState
  wrCnt : Nat
  xorAcc : Byte
  effects : List Effect
  deriving DecidableEq, Repr

/-- What the rules' examples show of a binary step. -/
structure BinView where
  state : FsmState
  wrCnt : Nat
  acc1 : Byte
  acc2 : Byte
  expLen : Half
  effects : List Effect
  deriving DecidableEq, Repr

/-- A text step on one byte. -/
def seenTxt (s : State) (b : Byte) : Option TextView :=
  (after s (.feed b)).map fun t =>
    ⟨t.session.state, t.session.wrCnt, t.session.xorAcc, t.effects⟩

/-- A binary step on one byte. -/
def seenBin (s : State) (b : Byte) : Option BinView :=
  (after s (.feed b)).map fun t =>
    ⟨t.session.state, t.session.wrCnt, t.session.acc1, t.session.acc2, t.session.expLen, t.effects⟩

/-! ## WellFormed refuses what each check is for (R10, R79) -/

theorem test_wf_reference : Config.wellFormed Config.reference = true := by decide
theorem test_wf_small : small.wellFormed = true := by decide
theorem test_wf_capacity_low : (sized 1).wellFormed = false := by decide
theorem test_wf_capacity_high : (sized 65536).wellFormed = false := by decide
theorem test_wf_same_starts : { small with binSync1 := 0x24 }.wellFormed = false := by decide
theorem test_wf_cstok_noise : { small with textCstok := 0x7F }.wellFormed = false := by decide
theorem test_wf_cstok_start : { small with textCstok := 0x24 }.wellFormed = false := by decide
theorem test_wf_cstok_sync :
    { small with textCstok := 0x60, binSync1 := 0x60 }.wellFormed = false := by decide
theorem test_wf_end1_start : { small with textEnd1 := 0x24 }.wellFormed = false := by decide
theorem test_wf_end2_sync : { small with textEnd2 := 0xB5 }.wellFormed = false := by decide
theorem test_wf_hex_start : { small with textStart := 0x41 }.wellFormed = false := by decide
theorem test_wf_hex_sync : { small with binSync1 := 0x39 }.wellFormed = false := by decide
theorem test_wf_startBin :
    Instr.wellFormed { small with binSync1 := 0x24 } .startBin = false := by decide
theorem test_wf_idleSkip_start : (Instr.idleSkip 0x24).wellFormed small = false := by decide
theorem test_wf_idleSkip_sync : (Instr.idleSkip 0xB5).wellFormed small = false := by decide
theorem test_wf_noise_equal : (Instr.txtNoise 0x7E).wellFormed small = false := by decide
theorem test_wf_cstok_above :
    Instr.wellFormed { small with textMaxChar := 0x29 } .txtCstok = false := by decide
theorem test_wf_ovf_noise : (Instr.txtOvf 0x7F).wellFormed small = false := by decide
theorem test_wf_ovf_token : (Instr.txtOvf 0x2A).wellFormed small = false := by decide
theorem test_wf_append_noise : (Instr.txtAppend 0x7F).wellFormed small = false := by decide
theorem test_wf_append_token : (Instr.txtAppend 0x2A).wellFormed small = false := by decide
theorem test_wf_hex1bad_digit : (Instr.txtHex1Bad 0x39).wellFormed small = false := by decide
theorem test_wf_hex2bad_digit : (Instr.txtHex2Bad 0x46).wellFormed small = false := by decide
theorem test_wf_end1bad : (Instr.txtEnd1Bad 0x0D).wellFormed small = false := by decide
theorem test_wf_end2bad : (Instr.txtEnd2Bad 0x0A).wellFormed small = false := by decide
theorem test_wf_sync2bad : (Instr.binSync2Bad 0x62).wellFormed small = false := by decide

/-! ## Each operation's byte, written out from R6, R75 and R79, decodes to it in its context -/

theorem test_decode_startText : decode idle (.feed 0b00100100) = .startText := by decide
theorem test_decode_startBin :
    decode (txt .expectEnd1 2 0 []) (.feed 0b10110101) = .startBin := by decide
theorem test_decode_idleSkip : decode idle (.feed 0b00001010) = .idleSkip 0x0A := by decide
theorem test_decode_txtNoise :
    decode (txt .expectPayloadOrChecksumTok 1 0x41 []) (.feed 0b10000000) = .txtNoise 0x80 := by
  decide
theorem test_decode_txtCstok :
    decode (txt .expectPayloadOrChecksumTok 8 0 []) (.feed 0b00101010) = .txtCstok := by decide
theorem test_decode_txtOvf :
    decode (txt .expectPayloadOrChecksumTok 8 0 []) (.feed 0b01001001) = .txtOvf 0x49 := by decide
theorem test_decode_txtAppend :
    decode (txt .expectPayloadOrChecksumTok 7 0 []) (.feed 0b01111110) = .txtAppend 0x7E := by
  decide
theorem test_decode_txtHex1 :
    decode (txt .expectChecksumHex1 3 0x5C []) (.feed 0b00110101) = .txtHex1 5 := by decide
theorem test_decode_txtHex1Bad :
    decode (txt .expectChecksumHex1 3 0x47 []) (.feed 0b00001101) = .txtHex1Bad 0x0D := by decide
theorem test_decode_txtHex2 :
    decode (txt .expectChecksumHex2 3 0x0C []) (.feed 0b01000011) = .txtHex2 12 := by decide
theorem test_decode_txtHex2Bad :
    decode (txt .expectChecksumHex2 3 0x0C []) (.feed 0b01100011) = .txtHex2Bad 0x63 := by decide
theorem test_decode_txtEnd1 :
    decode (txt .expectEnd1 3 0 []) (.feed 0b00001101) = .txtEnd1 := by decide
theorem test_decode_txtEnd1Bad :
    decode (txt .expectEnd1 3 0 []) (.feed 0b00001010) = .txtEnd1Bad 0x0A := by decide
theorem test_decode_txtEnd2Bad :
    decode (txt .expectEnd2 3 0 []) (.feed 0b00001101) = .txtEnd2Bad 0x0D := by decide
theorem test_decode_txtEnd2Ok :
    decode (txt .expectEnd2 3 0 []) (.feed 0b00001010) = .txtEnd2Ok := by decide
theorem test_decode_txtEnd2Ckfail :
    decode (txt .expectEnd2 3 0x10 []) (.feed 0b00001010) = .txtEnd2Ckfail := by decide
theorem test_decode_binSync2 :
    decode (bin .expectSync2 0 0 0 0 []) (.feed 0b01100010) = .binSync2 := by decide
theorem test_decode_binSync2Bad :
    decode (bin .expectSync2 0 0 0 0 []) (.feed 0b10110101) = .binSync2Bad 0xB5 := by decide
theorem test_decode_binLen0 :
    decode (bin .expectLength 0 0 0 0 []) (.feed 0b00000011) = .binLen0 0x03 := by decide
theorem test_decode_binLen1Ovf :
    decode (bin .expectLength 1 9 9 0 [(0, 9)]) (.feed 0b00000000) = .binLen1Ovf 0x00 := by decide
theorem test_decode_binLen1Zero :
    decode (bin .expectLength 1 0 0 0 [(0, 0)]) (.feed 0b00000000) = .binLen1Zero := by decide
theorem test_decode_binLen1 :
    decode (bin .expectLength 1 8 8 0 [(0, 8)]) (.feed 0b00000000) = .binLen1 0x00 := by decide
theorem test_decode_binPayOvf :
    decode (bin .expectPayload 8 0 0 7 []) (.feed 0b01110111) = .binPayOvf 0x77 := by decide
theorem test_decode_binPayLast :
    decode (bin .expectPayload 4 6 0x10 3 []) (.feed 0b00000011) = .binPayLast 0x03 := by decide
theorem test_decode_binPay :
    decode (bin .expectPayload 2 3 6 3 []) (.feed 0b00100100) = .binPay 0x24 := by decide
theorem test_decode_binCka :
    decode (bin .expectCheckA 5 9 0x19 3 []) (.feed 0b00001001) = .binCka 0x09 := by decide
theorem test_decode_binCkaBad :
    decode (bin .expectCheckA 5 9 0x19 3 []) (.feed 0b00001000) = .binCkaBad 0x08 := by decide
theorem test_decode_binCkbOk :
    decode (bin .expectCheckB 5 9 0x19 3 []) (.feed 0b00011001) = .binCkbOk 0x19 := by decide
theorem test_decode_binCkbBad :
    decode (bin .expectCheckB 5 9 0x19 3 []) (.feed 0b10011001) = .binCkbBad 0x99 := by decide
theorem test_decode_abort : decode (bin .expectPayload 4 6 0x10 3 []) .abort = .abort := by decide
theorem test_decode_reset : decode (txt .expectEnd1 4 6 []) .reset = .reset := by decide

/-! ## One step of each operation: the rules' own examples -/

theorem test_startText :
    seenTxt (txt .expectEnd1 2 0 []) 0x24
      = some ⟨.expectPayloadOrChecksumTok, 0, 0, [.armTimeout 5]⟩ := by decide
theorem test_startBin :
    seenBin { idle with session := { Session.reset with wrCnt := 4, acc1 := 1, acc2 := 2 } } 0xB5
      = some ⟨.expectSync2, 0, 0, 0, 0, [.armTimeout 5]⟩ := by decide
theorem test_idleSkip : seenTxt idle 0x0A = some ⟨.waitForStart, 0, 0, []⟩ := by decide
theorem test_txtNoise :
    seenTxt (txt .expectPayloadOrChecksumTok 1 0x41 [(0, 0x41)]) 0x80
      = some ⟨.waitForStart, 1, 0x41, [.armTimeout 5]⟩ := by decide
theorem test_txtCstok :
    seenTxt (txt .expectPayloadOrChecksumTok 3 0x5C []) 0x2A
      = some ⟨.expectChecksumHex1, 3, 0x5C, [.armTimeout 5]⟩ := by decide
theorem test_txtOvf :
    seenTxt (txt .expectPayloadOrChecksumTok 8 0x08 eight) 0x49
      = some ⟨.waitForStart, 8, 0x08, [.armTimeout 5]⟩ := by decide
theorem test_txtAppend :
    seenTxt (txt .expectPayloadOrChecksumTok 1 0x41 [(0, 0x41)]) 0x2C
      = some ⟨.expectPayloadOrChecksumTok, 2, 0x6D, [.armTimeout 5]⟩ := by decide
theorem test_txtAppend_cell :
    (after (txt .expectPayloadOrChecksumTok 1 0x41 [(0, 0x41), (1, 0x99), (5, 0x07)])
        (.feed 0x2C)).map (·.session.buf)
      = some [(0, 0x41), (1, 0x2C), (5, 0x07)] := by decide
theorem test_txtHex1 :
    seenTxt (txt .expectChecksumHex1 3 0x5C []) 0x35
      = some ⟨.expectChecksumHex2, 3, 0x0C, [.armTimeout 5]⟩ := by decide
theorem test_txtHex1Bad :
    seenTxt (txt .expectChecksumHex1 3 0x47 []) 0x0D
      = some ⟨.waitForStart, 3, 0x47, [.armTimeout 5]⟩ := by decide
theorem test_txtHex2 :
    seenTxt (txt .expectChecksumHex2 3 0x0C []) 0x43
      = some ⟨.expectEnd1, 3, 0x00, [.armTimeout 5]⟩ := by decide
theorem test_txtHex2Bad :
    seenTxt (txt .expectChecksumHex2 3 0x0C []) 0x63
      = some ⟨.waitForStart, 3, 0x0C, [.armTimeout 5]⟩ := by decide
theorem test_txtEnd1 :
    seenTxt (txt .expectEnd1 3 0 []) 0x0D = some ⟨.expectEnd2, 3, 0, [.armTimeout 5]⟩ := by decide
theorem test_txtEnd1Bad :
    seenTxt (txt .expectEnd1 3 0 []) 0x0A = some ⟨.waitForStart, 3, 0, [.armTimeout 5]⟩ := by decide
theorem test_txtEnd2Bad :
    seenTxt (txt .expectEnd2 3 0 []) 0x0D = some ⟨.waitForStart, 3, 0, [.armTimeout 5]⟩ := by decide
theorem test_txtEnd2Ok :
    seenTxt (txt .expectEnd2 3 0 [(0, 0x41), (1, 0x2C), (2, 0x31), (3, 0x77)]) 0x0A
      = some ⟨.waitForStart, 3, 0, [.frameText 3 [0x41, 0x2C, 0x31], .armTimeout 5]⟩ := by decide
theorem test_txtEnd2Ok_whole_buffer :
    seenTxt (txt .expectEnd2 8 0 eight) 0x0A
      = some ⟨.waitForStart, 8, 0,
          [.frameText 8 [0x41, 0x42, 0x43, 0x44, 0x45, 0x46, 0x47, 0x48], .armTimeout 5]⟩ := by
  decide
theorem test_txtEnd2Ckfail :
    seenTxt (txt .expectEnd2 3 0x10 []) 0x0A
      = some ⟨.waitForStart, 3, 0x10, [.armTimeout 5]⟩ := by decide
theorem test_binSync2 :
    seenBin (bin .expectSync2 0 0 0 0 []) 0x62
      = some ⟨.expectLength, 0, 0, 0, 0, [.armTimeout 5]⟩ := by decide
theorem test_binSync2Bad :
    seenBin (bin .expectSync2 0 0 0 0 []) 0x24
      = some ⟨.waitForStart, 0, 0, 0, 0, [.armTimeout 5]⟩ := by decide
theorem test_binLen0 :
    seenBin (bin .expectLength 0 0 0 0 []) 0x03
      = some ⟨.expectLength, 1, 3, 3, 0, [.armTimeout 5]⟩ := by decide
theorem test_binLen1Ovf :
    seenBin { bin .expectLength 1 0x81 0x81 7 [(0, 0x81)] with cfg := sized 128 } 0x00
      = some ⟨.waitForStart, 2, 0x81, 0x02, 7, [.armTimeout 5]⟩ := by decide
theorem test_binLen1Zero :
    seenBin (bin .expectLength 1 0 0 7 [(0, 0)]) 0x00
      = some ⟨.expectCheckA, 2, 0, 0, 0, [.armTimeout 5]⟩ := by decide
theorem test_binLen1 :
    seenBin (bin .expectLength 1 3 3 0 [(0, 3)]) 0x00
      = some ⟨.expectPayload, 2, 3, 6, 3, [.armTimeout 5]⟩ := by decide
/-- Vector B9b (95_test_vectors.md): the length 0x0201 under `C = 600`, the high byte in bits 15 to 8. -/
theorem test_binLen1_above_255 :
    seenBin { bin .expectLength 1 1 1 0 [(0, 1)] with cfg := sized 600 } 0x02
      = some ⟨.expectPayload, 2, 3, 4, 513, [.armTimeout 5]⟩ := by decide
theorem test_binPayOvf :
    seenBin (bin .expectPayload 8 1 2 7 eight) 0x77
      = some ⟨.waitForStart, 8, 1, 2, 7, [.armTimeout 5]⟩ := by decide
theorem test_binPayLast :
    seenBin (bin .expectPayload 4 6 0x10 3 []) 0x03
      = some ⟨.expectCheckA, 5, 9, 0x19, 3, [.armTimeout 5]⟩ := by decide
theorem test_binPay :
    seenBin (bin .expectPayload 2 3 6 3 []) 0x01
      = some ⟨.expectPayload, 3, 4, 0x0A, 3, [.armTimeout 5]⟩ := by decide
theorem test_binPay_wraps :
    seenBin (bin .expectPayload 2 0xFF 0xFE 3 []) 0x02
      = some ⟨.expectPayload, 3, 0x01, 0xFF, 3, [.armTimeout 5]⟩ := by decide
theorem test_binCka :
    seenBin (bin .expectCheckA 5 9 0x19 3 five) 0x09
      = some ⟨.expectCheckB, 5, 9, 0x19, 3, [.armTimeout 5]⟩ := by decide
theorem test_binCkaBad :
    seenBin (bin .expectCheckA 5 9 0x19 3 five) 0x08
      = some ⟨.waitForStart, 5, 9, 0x19, 3, [.armTimeout 5]⟩ := by decide
theorem test_binCkbOk :
    seenBin (bin .expectCheckB 5 9 0x19 3 five) 0x19
      = some ⟨.waitForStart, 5, 9, 0x19, 3,
          [.frameBinary 3 [0x01, 0x02, 0x03], .armTimeout 5]⟩ := by decide
theorem test_binCkbBad :
    seenBin (bin .expectCheckB 5 9 0x19 3 five) 0x99
      = some ⟨.waitForStart, 5, 9, 0x19, 3, [.armTimeout 5]⟩ := by decide
theorem test_abort :
    (after (bin .expectPayload 4 6 0x10 3 five) .abort).map
        (fun t => (t.session.state, t.session.proto, t.session.wrCnt, t.effects))
      = some (.waitForStart, .binary, 4, []) := by decide
theorem test_reset :
    (after (bin .expectPayload 4 6 0x10 3 five) .reset).map (fun t => (t.session, t.effects))
      = some ({ Session.reset with buf := five }, []) := by decide
theorem test_step_without_event :
    step { idle with effects := [.armTimeout 5] } = .next idle := rfl

/-! ## Unit vectors (R75, R76, R84) and the ports -/

theorem test_hex_values :
    ([0x30, 0x39, 0x41, 0x46].map hexVal, [0x2F, 0x3A, 0x40, 0x47, 0x61].map isHex)
      = ([0, 9, 10, 15], [false, false, false, false, false]) := by decide
theorem test_textFrame :
    textFrame small [0x41, 0x2C, 0x31]
      = [0x24, 0x41, 0x2C, 0x31, 0x2A, 0x35, 0x43, 0x0D, 0x0A] := by decide
theorem test_binFrame :
    binFrame small [1, 2, 3] = [0xB5, 0x62, 0x03, 0x00, 0x01, 0x02, 0x03, 0x09, 0x19] := by decide
/-- R27, R50: 8 and 7 bits for `C = 128`, 4 and 3 bits for `C = 8`. -/
theorem test_widths :
    (countWidth (sized 128), addrWidth (sized 128), countWidth small, addrWidth small)
      = (8, 7, 4, 3) := by decide
/-- R206: `abort` with a byte starts a new frame, `rst` beats both. -/
theorem test_edge_abort_then_feed :
    clockEdge ⟨false, true, true, 0x24⟩ (bin .expectPayload 4 6 0x10 3 five)
      = .next { bin .expectPayload 4 6 0x10 3 five with
          session := { (bin .expectPayload 0 6 0x10 3 five).session with
            state := .expectPayloadOrChecksumTok, proto := .text }
          effects := [.armTimeout 5] } := rfl
theorem test_edge_reset_wins :
    clockEdge ⟨true, true, true, 0x24⟩ (txt .expectEnd1 2 9 [])
      = .next idle := rfl
theorem test_output_pins :
    (after (bin .expectCheckB 5 9 0x19 3 five) (.feed 0x19)).map
        (fun t => (armTimeoutPin t, sinkTextPin t, sinkBinPin t, sinkLenPin t, sinkBasePin t))
      = some (true, false, true, some 3, some 2) := by decide
theorem test_debug_port :
    (dbgState (bin .expectCheckB 5 9 0x19 3 five), dbgProto (bin .expectCheckB 5 9 0x19 3 five),
        (dbgWrcnt (bin .expectCheckB 5 9 0x19 3 five)).toNat)
      = (12, 2, 5) := by decide

/-! ## Table words (log entry 8) -/

theorem test_word_start : decodeTableWord 8 0x24 = some .startText := by decide
theorem test_word_sync1 : decodeTableWord 8 0xB5 = some .startBin := by decide
theorem test_word_cstok : decodeTableWord 8 0x2A = some .txtCstok := by decide
theorem test_word_end1 : decodeTableWord 8 0x0D = some .txtEnd1 := by decide
theorem test_word_end2 : decodeTableWord 8 0x0A = some .txtEnd2Ok := by decide
theorem test_word_sync2 : decodeTableWord 8 0x62 = some .binSync2 := by decide
theorem test_word_zero : decodeTableWord 8 0x00 = some .binLen1Zero := by decide
theorem test_word_other : decodeTableWord 8 0x41 = some (.idleSkip 0x41) := by decide
theorem test_word_too_long : decodeTableWord 8 0x100 = none := by decide
theorem test_fetch_word :
    step (State.reset.withFetchWord 8 0x2A)
      = exec .txtCstok { State.reset.withFetchWord 8 0x2A with input := [] } := rfl

/-! ## Witnesses: for each statement with hypotheses, a state and operands that meet them all -/

/-- A text frame in progress with its buffer full. -/
def textFull : State := txt .expectPayloadOrChecksumTok 8 0x08 eight

/-- The second checksum byte of `BINFRAME(01 02 03)` awaited. -/
def checkB : State := bin .expectCheckB 5 9 0x19 3 five

/-- The high length byte awaited after the low one `lo`, with `C = n`. -/
def lengthHigh (n : Nat) (lo : Byte) : State :=
  { bin .expectLength 1 lo lo 0 [(0, lo)] with cfg := sized n }

/-- The same state with events delivered. -/
def fed (s : State) (es : List Event) : State := { s with input := es }

/-- An idle Framer with an earlier frame's bytes in its buffer. -/
def stale : State := bin .waitForStart 5 9 0x19 3 five

/-- Events delivered change no invariant. -/
theorem inv_fed {s : State} (h : Inv s) (es : List Event) : Inv (fed s es) :=
  ⟨h.canonical, h.inside, h.cursor, h.cells, h.length, h.textMode, h.binaryMode, h.atSync2,
    h.atLength, h.atPayload, h.atCheck, h.xorLaw, h.xorLawHigh, h.sumLaw⟩

theorem inv_textFull : Inv textFull where
  canonical := by decide
  inside := by decide
  cursor := by decide
  cells := by decide
  length := by decide
  textMode := by decide
  binaryMode := by decide
  atSync2 := by decide
  atLength := by decide
  atPayload := by decide
  atCheck := by decide
  xorLaw := by decide
  xorLawHigh := nofun
  sumLaw := by decide

theorem inv_checkB : Inv checkB where
  canonical := by decide
  inside := by decide
  cursor := by decide
  cells := by decide
  length := by decide
  textMode := by decide
  binaryMode := by decide
  atSync2 := by decide
  atLength := by decide
  atPayload := by decide
  atCheck := by decide
  xorLaw := by decide
  xorLawHigh := nofun
  sumLaw := by decide

theorem inv_idle : Inv idle where
  canonical := by decide
  inside := by decide
  cursor := by decide
  cells := by decide
  length := by decide
  textMode := by decide
  binaryMode := by decide
  atSync2 := by decide
  atLength := by decide
  atPayload := by decide
  atCheck := by decide
  xorLaw := by decide
  xorLawHigh := nofun
  sumLaw := by decide

theorem inv_stale : Inv stale where
  canonical := by decide
  inside := by decide
  cursor := by decide
  cells := by decide
  length := by decide
  textMode := by decide
  binaryMode := by decide
  atSync2 := by decide
  atLength := by decide
  atPayload := by decide
  atCheck := by decide
  xorLaw := by decide
  xorLawHigh := nofun
  sumLaw := by decide

/-- Decode half at `wr_cnt = C`, completion half at `wr_cnt = C - 1`. -/
theorem witness_TextAppendRule :
    textFull.session.wrCnt ≤ textFull.cfg.C
    ∧ (txt .expectPayloadOrChecksumTok 7 0 []).session.wrCnt < small.C := by decide
theorem witness_TextDeliveryRule :
    (txt .expectEnd2 8 0 eight).session.wrCnt ≤ small.C
    ∧ readCell (txt .expectEnd2 8 0 eight).session.buf 7 = some 0x48 := by decide
theorem witness_BinLenLowRule :
    ({ bin .expectLength 0 0 0 0 [] with cfg := sized 1 } : State).session.wrCnt = 0
    ∧ 1 ≤ ({ bin .expectLength 0 0 0 0 [] with cfg := sized 1 } : State).cfg.C := by decide
theorem witness_BinLenHighRules :
    (lengthHigh 2 2).session.wrCnt = 1 ∧ readCell (lengthHigh 2 2).session.buf 0 = some 2
    ∧ 2 ≤ (lengthHigh 2 2).cfg.C
    ∧ decode (lengthHigh 2 2) (.feed 0) = .binLen1 0
    ∧ decode (lengthHigh 2 3) (.feed 0) = .binLen1Ovf 0
    ∧ decode (lengthHigh 2 1) (.feed 0) = .binLen1 0 := by decide
theorem witness_BinLenZeroRule :
    (lengthHigh 2 0).session.wrCnt = 1 ∧ readCell (lengthHigh 2 0).session.buf 0 = some 0
    ∧ 2 ≤ (lengthHigh 2 0).cfg.C ∧ decode (lengthHigh 2 0) (.feed 0) = .binLen1Zero := by decide
/-- Decode half at `wr_cnt = C`, completion half at `wr_cnt = C - 1`. -/
theorem witness_BinPayloadRules :
    (bin .expectPayload 8 0 0 7 []).session.wrCnt ≤ small.C
    ∧ (bin .expectPayload 7 0 0 6 []).session.wrCnt < small.C := by decide
/-- The longest payload that fits beside its length bytes, and the empty one. -/
theorem witness_BinDeliveryRule :
    (bin .expectCheckB 8 0 0 6 eight).session.expLen.toNat + 2 ≤ small.C
    ∧ readCell eight (2 + 5) = some 0x48
    ∧ (bin .expectCheckB 2 0 0 0 []).session.expLen = 0 := by decide
theorem witness_AbortEventRule : idle.session.state = .waitForStart := by decide
theorem witness_StartTestEnabledWhere :
    (textFull.session.state.inTextTrack = true ∧ textFull.session.proto = .text
      ∧ textFull.session.state.inBinaryTrack = false)
    ∧ (checkB.session.state.inBinaryTrack = true ∧ checkB.session.proto = .binary
      ∧ checkB.session.state.inTextTrack = false) := by decide
theorem witness_EveryEventSelectsOneRow :
    (Instr.txtHex2 12).wellFormed small = true
    ∧ selects (txt .expectChecksumHex2 3 0x0C []) (.txtHex2 12) = true
    ∧ encode small (.txtHex2 12) = .feed 0x43 := by decide
theorem witness_OpcodeTableDecodesAlike :
    (lengthHigh 2 2).session.wrCnt ≤ (lengthHigh 2 2).cfg.C
    ∧ (lengthHigh 2 2).session.state.inTextTrack = false
    ∧ (lengthHigh 2 2).session.proto = .binary
    ∧ (lengthHigh 2 2).session.state = .expectLength ∧ (lengthHigh 2 2).session.wrCnt ≤ 1 := by
  decide
/-- One state of the reference configuration for each clause. -/
theorem witness_WordsDecodeAsWritten :
    State.reset.cfg = Config.reference ∧ State.reset.session.state = .waitForStart
    ∧ ∀ f p n m, ({ State.reset with session := { Session.reset with
        state := f, proto := p, wrCnt := n, buf := m } } : State).cfg = Config.reference :=
  ⟨rfl, rfl, fun _ _ _ _ => rfl⟩
theorem witness_HexDigitsReadBack :
    isHex 0x30 = true ∧ isHex 0x39 = true ∧ isHex 0x41 = true ∧ isHex 0x46 = true
    ∧ (0x30 : Byte).toNat = 0x30 ∧ (0x39 : Byte).toNat = 0x39 ∧ (0x41 : Byte).toNat = 0x41
    ∧ (0x46 : Byte).toNat = 0x46 := by decide
theorem witness_LengthIsLittleEndian :
    readCell (lengthHigh 8 0xFF).session.buf 0 = some 0xFF := by decide
theorem witness_StepPerformsSelectedOperation :
    (fed idle [.feed 0x24, .abort]).input = .feed 0x24 :: [.abort] := by decide
theorem witness_StepHoldsWithoutEvents : idle.input = [] := by decide
theorem witness_StepKeepsConfiguration :
    ∃ t, step (fed idle [.feed 0x24, .abort]) = .next t := ⟨_, rfl⟩
theorem witness_StepNeverStops : Inv textFull := inv_textFull
theorem witness_EveryStepKeepsInvariants :
    Inv (fed checkB [.feed 0x19]) ∧ ∃ t, step (fed checkB [.feed 0x19]) = .next t :=
  ⟨inv_fed inv_checkB _, _, rfl⟩
theorem witness_SuccessorsOfEachState :
    (fed checkB [.feed 0x18]).input = .feed 0x18 :: []
    ∧ (∃ t, step (fed checkB [.feed 0x18]) = .next t)
    ∧ checkB.session.state.inTextTrack = false ∧ checkB.session.proto = .binary :=
  ⟨rfl, ⟨_, rfl⟩, rfl, rfl⟩
theorem witness_OperationsWriteOnlyTheirRow :
    (∃ t, exec (.binPay 1) (bin .expectPayload 7 0 0 7 []) = .next t)
    ∧ (writeSet (.binPay 1)).buf = true
    ∧ (bin .expectPayload 7 0 0 7 []).session.wrCnt < small.C := ⟨⟨_, rfl⟩, by decide⟩
/-- The last cell, and the full buffer. -/
theorem witness_AppendChecksBounds :
    (writeSet (.txtAppend 0x41)).buf = true ∧ encode small (.txtAppend 0x41) = .feed 0x41
    ∧ (txt .expectPayloadOrChecksumTok 7 0 []).session.wrCnt < small.C
    ∧ textFull.session.wrCnt = textFull.cfg.C := by decide
theorem witness_AccessOutsideBufferFaults :
    (writeSet (.txtAppend 0x41)).buf = true
    ∧ small.C < (txt .expectPayloadOrChecksumTok 9 0 []).session.wrCnt
    ∧ small.C < (txt .expectEnd2 9 0 []).session.wrCnt
    ∧ (bin .expectCheckB 8 0 0 7 []).session.expLen ≠ 0
    ∧ small.C < (bin .expectCheckB 8 0 0 7 []).session.expLen.toNat + 2 := by decide
/-- `C = 1` with the high length byte, `C = 0` with the low one. -/
theorem witness_TinyBuffersAbortInLength :
    (fed (lengthHigh 1 0) [.feed 0x00]).input = .feed 0x00 :: []
    ∧ (lengthHigh 1 0).cfg.C < 2 ∧ (lengthHigh 1 0).session.wrCnt = (lengthHigh 1 0).cfg.C
    ∧ (lengthHigh 1 0).session.state = .expectLength
    ∧ (lengthHigh 1 0).session.proto = .binary
    ∧ (sized 0).C < 2 ∧ (bin .expectLength 0 0 0 0 []).session.wrCnt = (sized 0).C := by decide
theorem witness_AbortsAreSilent :
    abortCauseOf (.binPayOvf 0x77) = some .bufferOverflow
    ∧ (∃ t, exec (.binPayOvf 0x77) (bin .expectPayload 8 0 0 7 []) = .next t)
    ∧ ∀ b, Instr.binPayOvf 0x77 ≠ .binLen1Ovf b := ⟨rfl, ⟨_, rfl⟩, nofun⟩
theorem witness_AbortsResynchronize :
    abortCauseOf (.binLen1Ovf 0x00) = some .lengthOverflow
    ∧ (∃ t, exec (.binLen1Ovf 0x00) (lengthHigh 2 3) = .next t)
    ∧ (lengthHigh 2 3).cfg.binSync1 ≠ (lengthHigh 2 3).cfg.textStart :=
  ⟨rfl, ⟨_, rfl⟩, by decide⟩
/-- A step for each clause. -/
theorem witness_TimeoutRequestPerByte :
    (∃ t, step (fed checkB [.feed 0x19]) = .next t)
    ∧ decode (fed checkB [.feed 0x19]) (.feed 0x19) ≠ .idleSkip 0x19
    ∧ (∃ t, step (fed idle [.feed 0x0A]) = .next t)
    ∧ decode (fed idle [.feed 0x0A]) (.feed 0x0A) = .idleSkip 0x0A
    ∧ (∃ t, step (fed idle [.abort]) = .next t) ∧ idle.session.state = .waitForStart
    ∧ (∃ t, step (fed idle [.reset]) = .next t) ∧ (∃ t, step idle = .next t) :=
  ⟨⟨_, rfl⟩, by decide, ⟨_, rfl⟩, by decide, ⟨_, rfl⟩, rfl, ⟨_, rfl⟩, ⟨_, rfl⟩⟩
theorem witness_FramesComeFromDeliveriesOnly :
    (exec .txtEnd2Ok (txt .expectEnd2 3 0 eight) = .next { txt .expectEnd2 3 0 eight with
      session := (txt .waitForStart 3 0 eight).session
      effects := [.frameText 3 [0x41, 0x42, 0x43], .armTimeout 5] })
    ∧ exec (.binCkbOk 0x19) checkB = .next { checkB with
      session := (bin .waitForStart 5 9 0x19 3 five).session
      effects := [.frameBinary 3 [1, 2, 3], .armTimeout 5] } := ⟨rfl, rfl⟩
theorem witness_DeliveredBytesWereWritten :
    Inv (fed checkB [.feed 0x19]) ∧ ∃ t, step (fed checkB [.feed 0x19]) = .next t
      ∧ .frameBinary 3 [1, 2, 3] ∈ t.effects :=
  ⟨inv_fed inv_checkB _, _, rfl, by decide⟩
theorem witness_CanonicalBuffersAreEqual :
    Memory.wf eight = true ∧ Memory.wf (writeCell eight 3 0x44) = true
    ∧ ∀ a, readCell eight a = readCell (writeCell eight 3 0x44) a :=
  ⟨rfl, rfl, fun _ => rfl⟩
/-- The longest payload, in `WaitForStart` and in the text track. -/
theorem witness_TextFrameIsDelivered :
    small.wellFormed = true ∧ textPayload small (eight.map (·.2)) = true
    ∧ idle.session.state = .waitForStart ∧ textFull.session.proto = .text
    ∧ (fed idle (feeds (textFrame small (eight.map (·.2))))).input
        = feeds (textFrame small (eight.map (·.2))) ++ [] := by decide
theorem witness_TextChecksumDecidesDelivery :
    small.wellFormed = true ∧ textPayload small [0x41, 0x2C, 0x31] = true
    ∧ idle.session.state = .waitForStart
    ∧ BitVec.ofNat 8 (16 * (5 : Nibble).toNat + (12 : Nibble).toNat)
        = textChecksum [0x41, 0x2C, 0x31]
    ∧ BitVec.ofNat 8 (16 * (5 : Nibble).toNat + (13 : Nibble).toNat)
        ≠ textChecksum [0x41, 0x2C, 0x31] := by decide
/-- The longest payload that fits. -/
theorem witness_BinaryFrameIsDelivered :
    small.wellFormed = true ∧ [0x24, 0xB5, 0x62, 0x0D, 0x0A, (0xFF : Byte)].length + 2 ≤ small.C
    ∧ idle.session.state = .waitForStart ∧ textFull.session.proto = .text := by decide
theorem witness_BinaryChecksumDecidesDelivery :
    small.wellFormed = true ∧ [1, 2, (3 : Byte)].length + 2 ≤ small.C
    ∧ idle.session.state = .waitForStart
    ∧ (0x09 : Byte) = (runningSums (summedBytes [1, 2, 3])).1
    ∧ (0x08 : Byte) ≠ (runningSums (summedBytes [1, 2, 3])).1
    ∧ (0x99 : Byte) ≠ (runningSums (summedBytes [1, 2, 3])).2 := by decide
theorem witness_OverlongLengthDropsFrame :
    small.wellFormed = true ∧ idle.session.state = .waitForStart
    ∧ small.C < (9 : Byte).toNat + 256 * (0 : Byte).toNat := by decide
/-- The two lengths that pass the test and do not fit. -/
theorem witness_PayloadBeyondBufferIsDropped :
    small.wellFormed = true ∧ idle.session.state = .waitForStart
    ∧ 7 ≤ small.C ∧ small.C < 7 + 2 ∧ 8 ≤ small.C ∧ small.C < 8 + 2
    ∧ (List.replicate 7 (0x55 : Byte)).length = small.C - 1 := by decide
theorem witness_BinaryFrameEndsWithinBound :
    Inv (fed checkB (feeds [0x77] ++ [])) ∧ checkB.session.state.inBinaryTrack = true
    ∧ bytesLeft (fed checkB (feeds [0x77] ++ [])) ≤ [(0x77 : Byte)].length :=
  ⟨inv_fed inv_checkB _, rfl, by decide⟩
theorem witness_TextTrackIgnoresBinaryRegisters :
    textFull.session.state.inTextTrack = true ∧ textFull.session.proto = .text
    ∧ (0x24 : Byte) ≠ textFull.cfg.binSync1 ∧ ∃ t, step (fed textFull [.feed 0x24]) = .next t :=
  ⟨rfl, rfl, by decide, _, rfl⟩
theorem witness_BinaryTrackIgnoresTextAccumulator :
    checkB.session.state.inBinaryTrack = true ∧ checkB.session.proto = .binary
    ∧ ∃ t, step (fed checkB [.feed 0x19]) = .next t := ⟨rfl, rfl, _, rfl⟩
/-- Two idle Framers that differ in what an earlier frame left behind. -/
theorem witness_RetainedStateIsUnobservable :
    Inv (fed idle [.feed 0x24]) ∧ Inv (fed stale [.feed 0x24]) ∧ idle.cfg = stale.cfg
    ∧ idle.session.state = .waitForStart ∧ stale.session.state = .waitForStart :=
  ⟨inv_fed inv_idle _, inv_fed inv_stale _, rfl, rfl, rfl⟩
/-- An edge for each clause. -/
theorem witness_ClockEdgeIsItsSteps :
    idle.input = [] ∧ (PortIn.mk true true true 0x24).rst = true
    ∧ ((PortIn.mk false false true 0x24).rst, (PortIn.mk false false true 0x24).abort,
        (PortIn.mk false false true 0x24).rxValid) = (false, false, true)
    ∧ ((PortIn.mk false true false 0x24).rst, (PortIn.mk false true false 0x24).abort,
        (PortIn.mk false true false 0x24).rxValid) = (false, true, false)
    ∧ ((PortIn.mk false true true 0x24).rst, (PortIn.mk false true true 0x24).abort,
        (PortIn.mk false true true 0x24).rxValid) = (false, true, true)
    ∧ ((PortIn.mk false false false 0x24).rst, (PortIn.mk false false false 0x24).abort,
        (PortIn.mk false false false 0x24).rxValid) = (false, false, false) := by decide
theorem witness_OutputPinsShowEffects :
    ∃ t, step (fed checkB [.feed 0x19]) = .next t ∧ .frameBinary 3 [1, 2, 3] ∈ t.effects :=
  ⟨_, rfl, by decide⟩
theorem witness_ReadPortShowsDeliveredFrame :
    ∃ t, step (fed (txt .expectEnd2 8 0 eight) [.feed 0x0A]) = .next t
      ∧ .frameText 8 (eight.map (·.2)) ∈ t.effects :=
  ⟨_, rfl, by decide⟩
theorem witness_DebugPortShowsRegisters :
    textFull.session.wrCnt ≤ textFull.cfg.C
    ∧ dbgState textFull = dbgState { textFull with powerUp := 1 }
    ∧ (dbgWrcnt textFull).toNat = (dbgWrcnt { textFull with powerUp := 1 }).toNat := by decide
theorem witness_FetchWordRunsTableWord :
    State.reset.cfg = Config.reference ∧ decodeTableWord 8 0x2A = some .txtCstok :=
  ⟨rfl, by decide⟩

end Sys2Proof.Tests
end

/-! SUPPORT. Decode and encode (spec 30_encoding.md R75, R76, R78, R79): operand assembly, the start-token
test, the decode order state by state, and the agreement of decode with the rows of the opcode table. -/

namespace Sys2Proof.Encoding

open Sys2Proof.Machine

variable {s : State} {b : Byte} {i : Instr} {c : FsmState}

/-! ## Operand assembly (R75, R76) -/

@[simp] theorem isHex_hexDigit (h : Nibble) : isHex (hexDigit h) = true := by
  revert h; decide

@[simp] theorem hexVal_hexDigit (h : Nibble) : hexVal (hexDigit h) = h := by
  revert h; decide

/-- The sixteen digit codes are spelled by their values. -/
theorem hexDigit_hexVal (h : isHex b = true) : hexDigit (hexVal b) = b := by
  revert b; decide

/-- The decoded length as an integer: nothing is lost in 16 bits (R76). -/
theorem decodedLength_toNat (s : State) (b : Byte) :
    (decodedLength s b).toNat = (cellByte s 0).toNat + 256 * b.toNat := by
  have hlo : (cellByte s 0).toNat < 2 ^ 8 := (cellByte s 0).isLt
  rw [decodedLength, assembleLength, BitVec.toNat_append, ← Nat.shiftLeft_add_eq_or_of_lt hlo,
    Nat.shiftLeft_eq]
  omega

/-- The length is zero exactly when both of its bytes are. -/
theorem decodedLength_eq_zero_iff (s : State) (b : Byte) :
    decodedLength s b = 0 ↔ cellByte s 0 = 0 ∧ b = 0 := by
  simp only [BitVec.toNat_eq, decodedLength_toNat, BitVec.ofNat_eq_ofNat, BitVec.toNat_ofNat]
  omega

theorem lenOver_iff (s : State) (len : Half) : lenOver s len = true ↔ s.cfg.C < len.toNat := by
  simp [lenOver]

/-! ## The start-token test (R78, step 1 of R79) -/

theorem startEnabled_iff (s : State) :
    startEnabled s = true ↔ s.session.state = .waitForStart ∨ s.session.proto = .text := by
  simp [startEnabled]

/-- The two tracks and `WaitForStart` are all the states there are (R21). -/
theorem track_cases (f : FsmState) :
    f = .waitForStart ∨ f.inTextTrack = true ∨ f.inBinaryTrack = true := by
  cases f <;> decide

theorem startTaken_eq_false_iff (s : State) (b : Byte) :
    startTaken s (.feed b) = false ↔
      (startEnabled s = true → b ≠ s.cfg.textStart ∧ b ≠ s.cfg.binSync1) := by
  simp [startTaken]

/-- A byte that step 1 does not take is decoded by the tests of the state. -/
theorem decode_eq_decodeInState (h : startTaken s (.feed b) = false) :
    decode s (.feed b) = decodeInState s b := by
  have hne := (startTaken_eq_false_iff s b).mp h
  cases hen : startEnabled s with
  | false => simp [decode, decodeFeed, hen]
  | true =>
    obtain ⟨htext, hbin⟩ := hne hen
    simp [decode, decodeFeed, isTStart, isBSync1, htext, hbin]

theorem decode_textStart (h : startEnabled s = true) :
    decode s (.feed s.cfg.textStart) = .startText := by
  simp [decode, decodeFeed, isTStart, h]

theorem decode_binSync1 (h : startEnabled s = true) (hne : s.cfg.binSync1 ≠ s.cfg.textStart) :
    decode s (.feed s.cfg.binSync1) = .startBin := by
  simp [decode, decodeFeed, isTStart, isBSync1, h, hne]

/-! ## The tests of each state (step 2 of R79) -/

theorem decodeInState_waitForStart (h : s.session.state = .waitForStart) (b : Byte) :
    decodeInState s b = .idleSkip b := by
  simp [decodeInState, h]

theorem decodeInState_expectPayloadOrChecksumTok
    (h : s.session.state = .expectPayloadOrChecksumTok) (b : Byte) :
    decodeInState s b =
      if s.cfg.textMaxChar < b then .txtNoise b
      else if b = s.cfg.textCstok then .txtCstok
      else if s.session.wrCnt = s.cfg.C then .txtOvf b
      else .txtAppend b := by
  simp [decodeInState, h, isNoise, isCstok, bufFull]

theorem decodeInState_expectChecksumHex1 (h : s.session.state = .expectChecksumHex1) (b : Byte) :
    decodeInState s b = if isHex b = true then .txtHex1 (hexVal b) else .txtHex1Bad b := by
  simp [decodeInState, h]

theorem decodeInState_expectChecksumHex2 (h : s.session.state = .expectChecksumHex2) (b : Byte) :
    decodeInState s b = if isHex b = true then .txtHex2 (hexVal b) else .txtHex2Bad b := by
  simp [decodeInState, h]

theorem decodeInState_expectEnd1 (h : s.session.state = .expectEnd1) (b : Byte) :
    decodeInState s b = if b = s.cfg.textEnd1 then .txtEnd1 else .txtEnd1Bad b := by
  simp [decodeInState, h, isEnd1]

theorem decodeInState_expectEnd2 (h : s.session.state = .expectEnd2) (b : Byte) :
    decodeInState s b =
      if b ≠ s.cfg.textEnd2 then .txtEnd2Bad b
      else if s.session.xorAcc = 0 then .txtEnd2Ok
      else .txtEnd2Ckfail := by
  simp [decodeInState, h, isEnd2, xorOk]

theorem decodeInState_expectSync2 (h : s.session.state = .expectSync2) (b : Byte) :
    decodeInState s b = if b = s.cfg.binSync2 then .binSync2 else .binSync2Bad b := by
  simp [decodeInState, h, isBSync2]

theorem decodeInState_expectLength (h : s.session.state = .expectLength) (b : Byte) :
    decodeInState s b =
      if s.session.wrCnt = 0 then .binLen0 b
      else if s.cfg.C < (decodedLength s b).toNat then .binLen1Ovf b
      else if decodedLength s b = 0 then .binLen1Zero
      else .binLen1 b := by
  simp [decodeInState, h, lenOver]

theorem decodeInState_expectPayload (h : s.session.state = .expectPayload) (b : Byte) :
    decodeInState s b =
      if s.session.wrCnt = s.cfg.C then .binPayOvf b
      else if s.session.wrCnt + 1 = s.session.expLen.toNat + 2 then .binPayLast b
      else .binPay b := by
  simp [decodeInState, h, bufFull, payDone]

theorem decodeInState_expectCheckA (h : s.session.state = .expectCheckA) (b : Byte) :
    decodeInState s b = if b = s.session.acc1 then .binCka b else .binCkaBad b := by
  simp [decodeInState, h, ckaOk]

theorem decodeInState_expectCheckB (h : s.session.state = .expectCheckB) (b : Byte) :
    decodeInState s b = if b = s.session.acc2 then .binCkbOk b else .binCkbBad b := by
  simp [decodeInState, h, ckbOk]

/-! ## The row of an operation -/

/-- The right-hand side of R79's agreement: the row of `i` is the one that the event `e` selects. -/
structure RowOf (s : State) (e : Event) (i : Instr) : Prop where
  /-- The byte condition of the row. -/
  wellFormed : i.wellFormed s.cfg = true
  /-- Its context, its guard and the start-token test. -/
  selected : selects s i = true
  /-- The event spells the operation. -/
  spelled : encode s.cfg i = e

/-- A row of step 2 is selected in its context, under its guard, when step 1 leaves its byte alone. -/
theorem selects_iff_of_context (hc : contextOf i = some c) :
    selects s i = true ↔
      s.session.state = c ∧ guardHolds s i = true ∧ startTaken s (encode s.cfg i) = false := by
  simp [selects, hc, and_assoc]

/-- What step 2 has to show of the operation it selects: the start-token test is settled before. -/
theorem RowOf.ofContext (hstart : startTaken s (.feed b) = false) (hst : s.session.state = c)
    (hc : contextOf i = some c) (hw : i.wellFormed s.cfg = true) (hg : guardHolds s i = true)
    (he : encode s.cfg i = .feed b) : RowOf s (.feed b) i :=
  ⟨hw, (selects_iff_of_context hc).mpr ⟨hst, hg, he ▸ hstart⟩, he⟩

/-! ## Every event selects the row it decodes to -/

theorem rowOf_waitForStart (hstart : startTaken s (.feed b) = false)
    (hst : s.session.state = .waitForStart) : RowOf s (.feed b) (decodeInState s b) := by
  have hne := (startTaken_eq_false_iff s b).mp hstart ((startEnabled_iff s).mpr (.inl hst))
  rw [decodeInState_waitForStart hst]
  exact .ofContext hstart hst rfl (by simpa [Instr.wellFormed] using hne) rfl rfl

theorem rowOf_expectPayloadOrChecksumTok (hstart : startTaken s (.feed b) = false)
    (hst : s.session.state = .expectPayloadOrChecksumTok) :
    RowOf s (.feed b) (decodeInState s b) := by
  rw [decodeInState_expectPayloadOrChecksumTok hst]
  split_ifs with hnoise htok hfull
  · exact .ofContext hstart hst rfl (by simpa [Instr.wellFormed] using hnoise) rfl rfl
  · subst htok
    exact .ofContext hstart hst rfl (by simpa [Instr.wellFormed] using hnoise) rfl rfl
  · exact .ofContext hstart hst rfl (by simpa [Instr.wellFormed, htok] using hnoise)
      (by simpa [guardHolds] using hfull) rfl
  · exact .ofContext hstart hst rfl (by simpa [Instr.wellFormed, htok] using hnoise)
      (by simpa [guardHolds] using hfull) rfl

theorem rowOf_expectChecksumHex1 (hstart : startTaken s (.feed b) = false)
    (hst : s.session.state = .expectChecksumHex1) : RowOf s (.feed b) (decodeInState s b) := by
  rw [decodeInState_expectChecksumHex1 hst]
  split_ifs with hhex
  · exact .ofContext hstart hst rfl rfl rfl (congrArg Event.feed (hexDigit_hexVal hhex))
  · exact .ofContext hstart hst rfl (by simpa [Instr.wellFormed] using hhex) rfl rfl

theorem rowOf_expectChecksumHex2 (hstart : startTaken s (.feed b) = false)
    (hst : s.session.state = .expectChecksumHex2) : RowOf s (.feed b) (decodeInState s b) := by
  rw [decodeInState_expectChecksumHex2 hst]
  split_ifs with hhex
  · exact .ofContext hstart hst rfl rfl rfl (congrArg Event.feed (hexDigit_hexVal hhex))
  · exact .ofContext hstart hst rfl (by simpa [Instr.wellFormed] using hhex) rfl rfl

theorem rowOf_expectEnd1 (hstart : startTaken s (.feed b) = false)
    (hst : s.session.state = .expectEnd1) : RowOf s (.feed b) (decodeInState s b) := by
  rw [decodeInState_expectEnd1 hst]
  split_ifs with hend
  · exact .ofContext hstart hst rfl rfl rfl (congrArg Event.feed hend.symm)
  · exact .ofContext hstart hst rfl (by simpa [Instr.wellFormed] using hend) rfl rfl

theorem rowOf_expectEnd2 (hstart : startTaken s (.feed b) = false)
    (hst : s.session.state = .expectEnd2) : RowOf s (.feed b) (decodeInState s b) := by
  rw [decodeInState_expectEnd2 hst]
  split_ifs with hend hxor
  · exact .ofContext hstart hst rfl (by simpa [Instr.wellFormed] using hend) rfl rfl
  · exact .ofContext hstart hst rfl rfl (by simpa [guardHolds] using hxor)
      (congrArg Event.feed (not_not.mp hend).symm)
  · exact .ofContext hstart hst rfl rfl (by simpa [guardHolds] using hxor)
      (congrArg Event.feed (not_not.mp hend).symm)

theorem rowOf_expectSync2 (hstart : startTaken s (.feed b) = false)
    (hst : s.session.state = .expectSync2) : RowOf s (.feed b) (decodeInState s b) := by
  rw [decodeInState_expectSync2 hst]
  split_ifs with hsync
  · exact .ofContext hstart hst rfl rfl rfl (congrArg Event.feed hsync.symm)
  · exact .ofContext hstart hst rfl (by simpa [Instr.wellFormed] using hsync) rfl rfl

theorem rowOf_expectLength (hstart : startTaken s (.feed b) = false)
    (hst : s.session.state = .expectLength) : RowOf s (.feed b) (decodeInState s b) := by
  rw [decodeInState_expectLength hst]
  split_ifs with hfirst hover hzero
  · exact .ofContext hstart hst rfl rfl (by simpa [guardHolds] using hfirst) rfl
  · exact .ofContext hstart hst rfl rfl (by simpa [guardHolds, hfirst] using hover) rfl
  · obtain ⟨hlo, hb⟩ := (decodedLength_eq_zero_iff s b).mp hzero
    exact .ofContext hstart hst rfl rfl (by simpa [guardHolds, hfirst] using hlo)
      (congrArg Event.feed hb.symm)
  · have hpos : 1 ≤ (decodedLength s b).toNat :=
      Nat.pos_of_ne_zero fun h => hzero (BitVec.eq_of_toNat_eq h)
    exact .ofContext hstart hst rfl rfl
      (by simpa [guardHolds, hfirst] using And.intro hpos (not_lt.mp hover)) rfl

theorem rowOf_expectPayload (hstart : startTaken s (.feed b) = false)
    (hst : s.session.state = .expectPayload) : RowOf s (.feed b) (decodeInState s b) := by
  rw [decodeInState_expectPayload hst]
  split_ifs with hfull hlast
  · exact .ofContext hstart hst rfl rfl (by simpa [guardHolds] using hfull) rfl
  · exact .ofContext hstart hst rfl rfl (by simpa [guardHolds, hfull] using hlast) rfl
  · exact .ofContext hstart hst rfl rfl (by simpa [guardHolds, hfull] using hlast) rfl

theorem rowOf_expectCheckA (hstart : startTaken s (.feed b) = false)
    (hst : s.session.state = .expectCheckA) : RowOf s (.feed b) (decodeInState s b) := by
  rw [decodeInState_expectCheckA hst]
  split_ifs with hck
  · exact .ofContext hstart hst rfl rfl (by simpa [guardHolds] using hck) rfl
  · exact .ofContext hstart hst rfl rfl (by simpa [guardHolds] using hck) rfl

theorem rowOf_expectCheckB (hstart : startTaken s (.feed b) = false)
    (hst : s.session.state = .expectCheckB) : RowOf s (.feed b) (decodeInState s b) := by
  rw [decodeInState_expectCheckB hst]
  split_ifs with hck
  · exact .ofContext hstart hst rfl rfl (by simpa [guardHolds] using hck) rfl
  · exact .ofContext hstart hst rfl rfl (by simpa [guardHolds] using hck) rfl

/-- Step 2 selects a row in every state: each test that fails gives the conditions of the rows below it. -/
theorem rowOf_decodeInState (hstart : startTaken s (.feed b) = false) :
    RowOf s (.feed b) (decodeInState s b) := by
  cases hst : s.session.state with
  | waitForStart => exact rowOf_waitForStart hstart hst
  | expectPayloadOrChecksumTok => exact rowOf_expectPayloadOrChecksumTok hstart hst
  | expectChecksumHex1 => exact rowOf_expectChecksumHex1 hstart hst
  | expectChecksumHex2 => exact rowOf_expectChecksumHex2 hstart hst
  | expectEnd1 => exact rowOf_expectEnd1 hstart hst
  | expectEnd2 => exact rowOf_expectEnd2 hstart hst
  | expectSync2 => exact rowOf_expectSync2 hstart hst
  | expectLength => exact rowOf_expectLength hstart hst
  | expectPayload => exact rowOf_expectPayload hstart hst
  | expectCheckA => exact rowOf_expectCheckA hstart hst
  | expectCheckB => exact rowOf_expectCheckB hstart hst

/-- Decode selects the row of the operation it gives, for every event in every state. -/
theorem rowOf_decode (s : State) (e : Event) : RowOf s e (decode s e) := by
  cases e with
  | abort => exact ⟨rfl, rfl, rfl⟩
  | reset => exact ⟨rfl, rfl, rfl⟩
  | feed b =>
    cases hstart : startTaken s (.feed b) with
    | false => exact decode_eq_decodeInState hstart ▸ rowOf_decodeInState hstart
    | true =>
      obtain ⟨hen, hb⟩ : startEnabled s = true ∧ (b = s.cfg.textStart ∨ b = s.cfg.binSync1) := by
        simpa [startTaken] using hstart
      by_cases htext : b = s.cfg.textStart
      · subst htext
        rw [decode_textStart hen]
        exact ⟨rfl, hen, rfl⟩
      · obtain rfl := hb.resolve_left htext
        rw [decode_binSync1 hen htext]
        exact ⟨by simpa [Instr.wellFormed] using htext, hen, rfl⟩

/-! ## A selected row is the one its event decodes to -/

/-- A selected row of step 2 is found by decode as soon as the tests of its state find it. -/
theorem decode_encode_of_context (hs : selects s i = true) (hc : contextOf i = some c)
    (he : encode s.cfg i = .feed b)
    (hfind : s.session.state = c → guardHolds s i = true → decodeInState s b = i) :
    decode s (encode s.cfg i) = i := by
  obtain ⟨hst, hg, hstart⟩ := (selects_iff_of_context hc).mp hs
  rw [he] at hstart ⊢
  rw [decode_eq_decodeInState hstart, hfind hst hg]

/-- Decode after encode is the identity on the selected operations, with every operand. The cases are
grouped by the state in which the rows stand. -/
theorem decode_encode (hw : i.wellFormed s.cfg = true) (hs : selects s i = true) :
    decode s (encode s.cfg i) = i := by
  cases i with
  | startText => exact decode_textStart hs
  | startBin => exact decode_binSync1 hs (by simpa [Instr.wellFormed] using hw)
  | abort | reset => rfl
  | idleSkip b =>
    exact decode_encode_of_context hs rfl rfl fun hst _ => decodeInState_waitForStart hst b
  | txtNoise | txtCstok | txtOvf | txtAppend =>
    refine decode_encode_of_context hs rfl rfl fun hst hg => ?_
    simp_all [decodeInState_expectPayloadOrChecksumTok hst, Instr.wellFormed, guardHolds]
  | txtHex1 | txtHex1Bad =>
    refine decode_encode_of_context hs rfl rfl fun hst _ => ?_
    simp_all [decodeInState_expectChecksumHex1 hst, Instr.wellFormed]
  | txtHex2 | txtHex2Bad =>
    refine decode_encode_of_context hs rfl rfl fun hst _ => ?_
    simp_all [decodeInState_expectChecksumHex2 hst, Instr.wellFormed]
  | txtEnd1 | txtEnd1Bad =>
    refine decode_encode_of_context hs rfl rfl fun hst _ => ?_
    simp_all [decodeInState_expectEnd1 hst, Instr.wellFormed]
  | txtEnd2Bad | txtEnd2Ok | txtEnd2Ckfail =>
    refine decode_encode_of_context hs rfl rfl fun hst hg => ?_
    simp_all [decodeInState_expectEnd2 hst, Instr.wellFormed, guardHolds]
  | binSync2 | binSync2Bad =>
    refine decode_encode_of_context hs rfl rfl fun hst _ => ?_
    simp_all [decodeInState_expectSync2 hst, Instr.wellFormed]
  | binLen0 | binLen1Ovf =>
    refine decode_encode_of_context hs rfl rfl fun hst hg => ?_
    simp_all [decodeInState_expectLength hst, guardHolds]
  | binLen1Zero =>
    refine decode_encode_of_context hs rfl rfl fun hst hg => ?_
    obtain ⟨hsecond, hlo⟩ : s.session.wrCnt ≠ 0 ∧ cellByte s 0 = 0 := by
      simpa [guardHolds] using hg
    have hzero : decodedLength s 0x00 = 0 := (decodedLength_eq_zero_iff s 0x00).mpr ⟨hlo, rfl⟩
    have hfits : ¬ s.cfg.C < (decodedLength s 0x00).toNat := by rw [hzero]; exact Nat.not_lt_zero _
    rw [decodeInState_expectLength hst, if_neg hsecond, if_neg hfits, if_pos hzero]
  | binLen1 b =>
    refine decode_encode_of_context hs rfl rfl fun hst hg => ?_
    obtain ⟨⟨hsecond, hpos⟩, hfits⟩ : (s.session.wrCnt ≠ 0 ∧ 1 ≤ (decodedLength s b).toNat)
        ∧ (decodedLength s b).toNat ≤ s.cfg.C := by
      simpa [guardHolds] using hg
    have hne : decodedLength s b ≠ 0 := fun h => by simp [h] at hpos
    rw [decodeInState_expectLength hst, if_neg hsecond, if_neg (not_lt.mpr hfits), if_neg hne]
  | binPayOvf | binPay =>
    refine decode_encode_of_context hs rfl rfl fun hst hg => ?_
    simp_all [decodeInState_expectPayload hst, guardHolds]
  | binPayLast b =>
    refine decode_encode_of_context hs rfl rfl fun hst hg => ?_
    obtain ⟨hroom, hlast⟩ : s.session.wrCnt ≠ s.cfg.C
        ∧ s.session.wrCnt + 1 = s.session.expLen.toNat + 2 := by
      simpa [guardHolds] using hg
    rw [decodeInState_expectPayload hst, if_neg hroom, if_pos hlast]
  | binCka | binCkaBad =>
    refine decode_encode_of_context hs rfl rfl fun hst hg => ?_
    simp_all [decodeInState_expectCheckA hst, guardHolds]
  | binCkbOk | binCkbBad =>
    refine decode_encode_of_context hs rfl rfl fun hst hg => ?_
    simp_all [decodeInState_expectCheckB hst, guardHolds]

/-! ## The obligations -/

/-- Settles O21: decode gives the row its event selects (`rowOf_decode`), and a selected row is what its
event decodes to (`decode_encode`). -/
theorem everyEventSelectsOneRow : Obligations.EveryEventSelectsOneRow := by
  unfold Obligations.EveryEventSelectsOneRow
  intro s e i
  constructor
  · rintro rfl
    obtain ⟨hw, hs, he⟩ := rowOf_decode s e
    exact ⟨hw, hs, he⟩
  · rintro ⟨hw, hs, rfl⟩
    exact decode_encode hw hs

/-- Settles O20: with I-3, a state with `proto = Text` is `WaitForStart` or in the text track, since a
binary-track state has `proto = Binary`. -/
theorem startTestEnabledWhere : Obligations.StartTestEnabledWhere := by
  unfold Obligations.StartTestEnabledWhere
  refine fun s => ⟨startEnabled_iff s, fun htext hbin => ?_⟩
  rw [startEnabled_iff]
  constructor
  · rintro (hidle | hproto)
    · exact .inl hidle
    · rcases track_cases s.session.state with hidle | htrack | htrack
      · exact .inl hidle
      · exact .inr htrack
      · exact absurd ((hbin htrack).symm.trans hproto) (by decide)
  · exact Or.imp id htext

/-- Settles O25: cell 0 reads as `lo`, and the length is `decodedLength_toNat`. -/
theorem lengthIsLittleEndian : Obligations.LengthIsLittleEndian := by
  unfold Obligations.LengthIsLittleEndian
  intro s lo hi hcell
  have hlen : (decodedLength s hi).toNat = lo.toNat + 256 * hi.toNat := by
    rw [decodedLength_toNat, Laws.cellByte_of_readCell hcell]
  exact ⟨hlen, Nat.le_of_lt_succ (decodedLength s hi).isLt, by rw [lenOver_iff, hlen]⟩

end Sys2Proof.Encoding

/-! SUPPORT. Start detection (spec 40_start_detect.md R101 to R103): which bytes select the two start
operations and IDLE.SKIP, and what each of the three does to a state. Selection is read off the operation's
row, through the agreement of decode with the opcode table. -/

namespace Sys2Proof.StartDetect

open Sys2Proof.Machine

/-! ## The meanings as full next states -/

theorem exec_startText (s : State) :
    exec .startText s = .next { s with
      session := { s.session with
        wrCnt := 0, xorAcc := 0x00, proto := .text, state := .expectPayloadOrChecksumTok }
      effects := [.armTimeout s.cfg.timeoutMs] } := rfl

theorem exec_startBin (s : State) :
    exec .startBin s = .next { s with
      session := { s.session with
        wrCnt := 0, acc1 := 0x00, acc2 := 0x00, proto := .binary, state := .expectSync2 }
      effects := [.armTimeout s.cfg.timeoutMs] } := rfl

theorem exec_idleSkip (b : Byte) (s : State) :
    exec (.idleSkip b) s = .next { s with effects := [] } := rfl

/-! ## Which bytes select them -/

/-- A byte decodes to an operation exactly when it meets the operation's row (R79): its byte condition,
its selection, and that it spells the operation. -/
theorem decode_feed_iff_row (s : State) (b : Byte) (i : Instr) :
    decode s (.feed b) = i ↔
      i.wellFormed s.cfg = true ∧ selects s i = true ∧ encode s.cfg i = .feed b :=
  Encoding.everyEventSelectsOneRow s (.feed b) i

theorem decode_eq_startText_iff (s : State) (b : Byte) :
    decode s (.feed b) = .startText ↔ startEnabled s = true ∧ b = s.cfg.textStart := by
  rw [decode_feed_iff_row]
  have hspell : encode s.cfg .startText = .feed b ↔ b = s.cfg.textStart := by
    simp [encode, eq_comm]
  simp [Instr.wellFormed, selects, contextOf, guardHolds, hspell]

/-- TEXT_START is tested first, so a `BIN_SYNC1` of the same value selects START.TEXT instead. -/
theorem decode_eq_startBin_iff (s : State) (b : Byte) :
    decode s (.feed b) = .startBin ↔
      startEnabled s = true ∧ b ≠ s.cfg.textStart ∧ b = s.cfg.binSync1 := by
  rw [decode_feed_iff_row]
  have hspell : encode s.cfg .startBin = .feed b ↔ b = s.cfg.binSync1 := by
    simp [encode, eq_comm]
  have hrow : (Instr.startBin).wellFormed s.cfg = true ↔ s.cfg.binSync1 ≠ s.cfg.textStart := by
    simp [Instr.wellFormed]
  rw [hspell, hrow]
  constructor
  · rintro ⟨hne, hen, rfl⟩
    exact ⟨hen, hne, rfl⟩
  · rintro ⟨hen, hne, rfl⟩
    exact ⟨hne, hen, rfl⟩

/-- In `WaitForStart` the start-token test is enabled, so IDLE.SKIP gets the bytes that test leaves. -/
theorem decode_eq_idleSkip_iff (s : State) (b : Byte) :
    decode s (.feed b) = .idleSkip b ↔
      s.session.state = .waitForStart ∧ b ≠ s.cfg.textStart ∧ b ≠ s.cfg.binSync1 := by
  have hcontext : contextOf (.idleSkip b) = some .waitForStart := rfl
  rw [decode_feed_iff_row, Encoding.selects_iff_of_context hcontext]
  have hrow : (Instr.idleSkip b).wellFormed s.cfg = true ↔
      b ≠ s.cfg.textStart ∧ b ≠ s.cfg.binSync1 := by
    simp [Instr.wellFormed]
  rw [hrow]
  constructor
  · rintro ⟨hbyte, ⟨hidle, -, -⟩, -⟩
    exact ⟨hidle, hbyte⟩
  · rintro ⟨hidle, hbyte⟩
    have hstart : startTaken s (encode s.cfg (.idleSkip b)) = false :=
      (Encoding.startTaken_eq_false_iff s b).mpr fun _ => hbyte
    exact ⟨hbyte, ⟨hidle, rfl, hstart⟩, rfl⟩

/-! ## The obligations -/

/-- Settles O1: the start-token test is enabled where `startEnabled_iff` says. -/
theorem startTextRule : Obligations.StartTextRule := by
  unfold Obligations.StartTextRule
  refine fun s => ⟨fun b => ?_, exec_startText s⟩
  rw [decode_eq_startText_iff, Encoding.startEnabled_iff]

/-- Settles O2: as O1, with the byte left by the test of TEXT_START. -/
theorem startBinRule : Obligations.StartBinRule := by
  unfold Obligations.StartBinRule
  refine fun s => ⟨fun b => ?_, exec_startBin s⟩
  rw [decode_eq_startBin_iff, Encoding.startEnabled_iff]

/-- Settles O3: selection by the row of IDLE.SKIP, and its meaning `exec_idleSkip`. -/
theorem idleSkipRule : Obligations.IdleSkipRule := by
  unfold Obligations.IdleSkipRule
  exact fun s b => ⟨decode_eq_idleSkip_iff s b, exec_idleSkip b s⟩

end Sys2Proof.StartDetect

/-! SUPPORT. The text track (spec 41_text_track.md R110 to R119, R121, R122): which bytes select each
operation, and what the operation does to a state. Selection is read off the operation's row, through the
agreement of decode with the opcode table; the meanings are those of the shared operations. -/

namespace Sys2Proof.TextTrack

open Sys2Proof.Machine

/-! ## The shared operations as full next states -/

/-- The silent abort writes `state` alone, whatever its cause (R200). -/
theorem aborted_eq (c : AbortCause) (s : State) :
    aborted c s = .next { s with
      session := { s.session with state := .waitForStart }
      effects := [.armTimeout s.cfg.timeoutMs] } := rfl

theorem armed_goto (f : FsmState) (s : State) :
    armed s (goto f s.session) = .next { s with
      session := { s.session with state := f }
      effects := [.armTimeout s.cfg.timeoutMs] } := rfl

/-- Absorbing a digit and going on writes `xor_acc` and `state`. -/
theorem armed_goto_absorb (f : FsmState) (v : Byte) (s : State) :
    armed s (goto f (absorb v s.session)) = .next { s with
      session := { s.session with xorAcc := s.session.xorAcc ^^^ v, state := f }
      effects := [.armTimeout s.cfg.timeoutMs] } := rfl

/-! ## The meanings in terms of the shared operations -/

theorem exec_txtNoise (b : Byte) (s : State) :
    exec (.txtNoise b) s = aborted .invalidCharacter s := rfl

theorem exec_txtCstok (s : State) :
    exec .txtCstok s = armed s (goto .expectChecksumHex1 s.session) := rfl

theorem exec_txtOvf (b : Byte) (s : State) :
    exec (.txtOvf b) s = aborted .bufferOverflow s := rfl

theorem exec_txtAppend (b : Byte) (s : State) :
    exec (.txtAppend b) s = appending b (absorb b) s := rfl

theorem exec_txtHex1 (h : Nibble) (s : State) :
    exec (.txtHex1 h) s = armed s (goto .expectChecksumHex2 (absorb (highNibble h) s.session)) := rfl

theorem exec_txtHex1Bad (b : Byte) (s : State) :
    exec (.txtHex1Bad b) s = aborted .invalidCharacter s := rfl

theorem exec_txtHex2 (h : Nibble) (s : State) :
    exec (.txtHex2 h) s = armed s (goto .expectEnd1 (absorb (lowNibble h) s.session)) := rfl

theorem exec_txtHex2Bad (b : Byte) (s : State) :
    exec (.txtHex2Bad b) s = aborted .invalidCharacter s := rfl

theorem exec_txtEnd1 (s : State) :
    exec .txtEnd1 s = armed s (goto .expectEnd2 s.session) := rfl

theorem exec_txtEnd1Bad (b : Byte) (s : State) :
    exec (.txtEnd1Bad b) s = aborted .terminatorMismatch s := rfl

theorem exec_txtEnd2Bad (b : Byte) (s : State) :
    exec (.txtEnd2Bad b) s = aborted .terminatorMismatch s := rfl

theorem exec_txtEnd2Ckfail (s : State) :
    exec .txtEnd2Ckfail s = aborted .checksumMismatch s := rfl

/-! ## The digits as integers (R75, R114, R116) -/

theorem highNibble_eq_ofNat (h : Nibble) : highNibble h = BitVec.ofNat 8 (16 * h.toNat) := by
  apply BitVec.eq_of_toNat_eq
  have hlt := h.isLt
  rw [highNibble, BitVec.toNat_append, BitVec.toNat_ofNat, BitVec.toNat_ofNat, Nat.shiftLeft_eq]
  simp only [Nat.zero_mod, Nat.or_zero]
  omega

theorem lowNibble_eq_ofNat (h : Nibble) : lowNibble h = BitVec.ofNat 8 h.toNat :=
  (BitVec.ofNat_toNat 8 h).symm

/-- A byte spells a digit exactly when it is a digit code and the digit is its value. -/
theorem hexDigit_eq_iff (h : Nibble) (b : Byte) :
    hexDigit h = b ↔ isHex b = true ∧ h = hexVal b := by
  constructor
  · rintro rfl
    exact ⟨Encoding.isHex_hexDigit h, (Encoding.hexVal_hexDigit h).symm⟩
  · rintro ⟨hhex, rfl⟩
    exact Encoding.hexDigit_hexVal hhex

/-! ## Which bytes select each operation -/

section Selection

variable {s : State} {b : Byte} {i : Instr} {c : FsmState} {P : Prop}

/-- A byte decodes to an operation of step 2 exactly when the state is the one its row stands in, step 1
leaves the byte alone, and the row's own condition holds: its byte condition, its guard and its spelling. -/
theorem decode_iff_of_context (hc : contextOf i = some c)
    (hrow : i.wellFormed s.cfg = true ∧ guardHolds s i = true ∧ encode s.cfg i = .feed b ↔ P) :
    decode s (.feed b) = i ↔
      s.session.state = c ∧ startTaken s (.feed b) = false ∧ P := by
  rw [StartDetect.decode_feed_iff_row, Encoding.selects_iff_of_context hc, ← hrow]
  constructor
  · rintro ⟨hw, ⟨hst, hg, hstart⟩, he⟩
    exact ⟨hst, he ▸ hstart, hw, hg, he⟩
  · rintro ⟨hst, hstart, hw, hg, he⟩
    exact ⟨hw, ⟨hst, hg, he ▸ hstart⟩, he⟩

variable (s b)

theorem decode_eq_txtNoise_iff :
    decode s (.feed b) = .txtNoise b ↔
      s.session.state = .expectPayloadOrChecksumTok ∧ startTaken s (.feed b) = false
        ∧ s.cfg.textMaxChar.toNat < b.toNat :=
  decode_iff_of_context rfl (by simp [Instr.wellFormed, guardHolds, encode, BitVec.lt_def])

/-- The noise test comes first, so a checksum token above `TEXT_MAX_CHAR` is noise. -/
theorem decode_eq_txtCstok_iff :
    decode s (.feed b) = .txtCstok ↔
      s.session.state = .expectPayloadOrChecksumTok ∧ startTaken s (.feed b) = false
        ∧ b.toNat ≤ s.cfg.textMaxChar.toNat ∧ b = s.cfg.textCstok := by
  refine decode_iff_of_context rfl ?_
  simp only [Instr.wellFormed, guardHolds, encode, decide_eq_true_eq, true_and, Event.feed.injEq,
    BitVec.le_def]
  constructor
  · rintro ⟨hle, rfl⟩
    exact ⟨hle, rfl⟩
  · rintro ⟨hle, rfl⟩
    exact ⟨hle, rfl⟩

theorem decode_eq_txtOvf_iff :
    decode s (.feed b) = .txtOvf b ↔
      s.session.state = .expectPayloadOrChecksumTok ∧ startTaken s (.feed b) = false
        ∧ b.toNat ≤ s.cfg.textMaxChar.toNat ∧ b ≠ s.cfg.textCstok ∧ s.session.wrCnt = s.cfg.C :=
  decode_iff_of_context rfl
    (by simp [Instr.wellFormed, guardHolds, encode, BitVec.le_def, and_assoc])

/-- Without I-2 the row's guard is the failed test of a full buffer. -/
theorem decode_eq_txtAppend_iff :
    decode s (.feed b) = .txtAppend b ↔
      s.session.state = .expectPayloadOrChecksumTok ∧ startTaken s (.feed b) = false
        ∧ b.toNat ≤ s.cfg.textMaxChar.toNat ∧ b ≠ s.cfg.textCstok ∧ s.session.wrCnt ≠ s.cfg.C :=
  decode_iff_of_context rfl
    (by simp [Instr.wellFormed, guardHolds, encode, BitVec.le_def, and_assoc])

theorem decode_eq_txtHex1_iff (h : Nibble) :
    decode s (.feed b) = .txtHex1 h ↔
      s.session.state = .expectChecksumHex1 ∧ startTaken s (.feed b) = false
        ∧ isHex b = true ∧ h = hexVal b :=
  decode_iff_of_context rfl (by simp [Instr.wellFormed, guardHolds, encode, hexDigit_eq_iff])

theorem decode_eq_txtHex1Bad_iff :
    decode s (.feed b) = .txtHex1Bad b ↔
      s.session.state = .expectChecksumHex1 ∧ startTaken s (.feed b) = false ∧ isHex b = false :=
  decode_iff_of_context rfl (by simp [Instr.wellFormed, guardHolds, encode])

theorem decode_eq_txtHex2_iff (h : Nibble) :
    decode s (.feed b) = .txtHex2 h ↔
      s.session.state = .expectChecksumHex2 ∧ startTaken s (.feed b) = false
        ∧ isHex b = true ∧ h = hexVal b :=
  decode_iff_of_context rfl (by simp [Instr.wellFormed, guardHolds, encode, hexDigit_eq_iff])

theorem decode_eq_txtHex2Bad_iff :
    decode s (.feed b) = .txtHex2Bad b ↔
      s.session.state = .expectChecksumHex2 ∧ startTaken s (.feed b) = false ∧ isHex b = false :=
  decode_iff_of_context rfl (by simp [Instr.wellFormed, guardHolds, encode])

theorem decode_eq_txtEnd1_iff :
    decode s (.feed b) = .txtEnd1 ↔
      s.session.state = .expectEnd1 ∧ startTaken s (.feed b) = false ∧ b = s.cfg.textEnd1 :=
  decode_iff_of_context rfl (by simp [Instr.wellFormed, guardHolds, encode, eq_comm])

theorem decode_eq_txtEnd1Bad_iff :
    decode s (.feed b) = .txtEnd1Bad b ↔
      s.session.state = .expectEnd1 ∧ startTaken s (.feed b) = false ∧ b ≠ s.cfg.textEnd1 :=
  decode_iff_of_context rfl (by simp [Instr.wellFormed, guardHolds, encode])

theorem decode_eq_txtEnd2Ckfail_iff :
    decode s (.feed b) = .txtEnd2Ckfail ↔
      s.session.state = .expectEnd2 ∧ startTaken s (.feed b) = false ∧ b = s.cfg.textEnd2
        ∧ s.session.xorAcc ≠ 0 :=
  decode_iff_of_context rfl (by
    simp only [Instr.wellFormed, guardHolds, encode, true_and, bne_iff_ne, Event.feed.injEq]
    rw [and_comm, eq_comm])

theorem decode_eq_txtEnd2Bad_iff :
    decode s (.feed b) = .txtEnd2Bad b ↔
      s.session.state = .expectEnd2 ∧ startTaken s (.feed b) = false ∧ b ≠ s.cfg.textEnd2 :=
  decode_iff_of_context rfl (by simp [Instr.wellFormed, guardHolds, encode])

end Selection

/-! ## The obligations -/

/-- Settles O5: I-2 turns the failed test of a full buffer into `wr_cnt < C`, and below the capacity the
append is the stored one, with `readCell_writeCell` for the cells. -/
theorem textAppendRule : Obligations.TextAppendRule := by
  unfold Obligations.TextAppendRule
  refine fun s b => ⟨fun hle => ?_, fun hlt => ?_⟩
  · rw [hle.lt_iff_ne]
    exact decode_eq_txtAppend_iff s b
  · refine ⟨commit s (absorb b (Laws.appended s b)) [arm s], ?_, rfl, rfl, fun c => ?_⟩
    · rw [exec_txtAppend, Laws.appending_below b _ hlt, armed]
    · exact Laws.readCell_writeCell s.session.buf s.session.wrCnt c b

/-- Settles O6: selection by the rows, the digit placed by `highNibble_eq_ofNat` and
`lowNibble_eq_ofNat`. -/
theorem textDigitRules : Obligations.TextDigitRules := by
  unfold Obligations.TextDigitRules
  refine fun s b h => ⟨decode_eq_txtHex1_iff s b h, decode_eq_txtHex1Bad_iff s b,
    decode_eq_txtHex2_iff s b h, decode_eq_txtHex2Bad_iff s b, ?hex1, ?hex2, ?hex1Bad, ?hex2Bad,
    rfl, rfl⟩
  case hex1 => rw [exec_txtHex1, armed_goto_absorb, highNibble_eq_ofNat]
  case hex2 => rw [exec_txtHex2, armed_goto_absorb, lowNibble_eq_ofNat]
  case hex1Bad => rw [exec_txtHex1Bad, aborted_eq]
  case hex2Bad => rw [exec_txtHex2Bad, aborted_eq]

/-- Settles O4: selection by the rows; two of the meanings are the silent abort and one is a jump. -/
theorem textPayloadEndRules : Obligations.TextPayloadEndRules := by
  unfold Obligations.TextPayloadEndRules
  refine fun s b => ⟨decode_eq_txtNoise_iff s b, decode_eq_txtCstok_iff s b,
    decode_eq_txtOvf_iff s b, ?noise, ?cstok, ?ovf, rfl, rfl, rfl⟩
  case noise => rw [exec_txtNoise, aborted_eq]
  case cstok => rw [exec_txtCstok, armed_goto]
  case ovf => rw [exec_txtOvf, aborted_eq]

/-- Settles O7: selection by the rows; TXT.END1 is a jump and the other three are the silent abort. -/
theorem textTerminatorRules : Obligations.TextTerminatorRules := by
  unfold Obligations.TextTerminatorRules
  refine fun s b => ⟨decode_eq_txtEnd1_iff s b, decode_eq_txtEnd1Bad_iff s b,
    decode_eq_txtEnd2Ckfail_iff s b, decode_eq_txtEnd2Bad_iff s b, ?end1, ?end1Bad, ?end2Ckfail,
    ?end2Bad, rfl, rfl, rfl⟩
  case end1 => rw [exec_txtEnd1, armed_goto]
  case end1Bad => rw [exec_txtEnd1Bad, aborted_eq]
  case end2Ckfail => rw [exec_txtEnd2Ckfail, aborted_eq]
  case end2Bad => rw [exec_txtEnd2Bad, aborted_eq]

end Sys2Proof.TextTrack

/-! SUPPORT. The binary track (spec 42_binary_track.md R140, R143, R144, R146 to R148, R150, R151, R153):
which bytes select each operation, and what the operation does to a state. Selection is read off the
operation's row; the five operations that store and sum a byte share one lemma, `stores_and_sums`. -/

namespace Sys2Proof.BinaryTrack

open Sys2Proof.Machine

/-! ## `Sum(b)` on integers (R140) and the decoded length (R76) -/

theorem sum_eq_ofNat (b : Byte) (ses : Session) :
    sum b ses = { ses with
      acc1 := BitVec.ofNat 8 (ses.acc1.toNat + b.toNat)
      acc2 := BitVec.ofNat 8 (ses.acc2.toNat + (ses.acc1.toNat + b.toNat) % 256) } := rfl

section Length

variable {s : State} {lo : Byte} (hcell : readCell s.session.buf 0 = some lo) (b : Byte)

include hcell

theorem decodedLength_toNat_of_cell :
    (decodedLength s b).toNat = lo.toNat + 256 * b.toNat := by
  rw [Encoding.decodedLength_toNat, Laws.cellByte_of_readCell hcell]

theorem decodedLength_eq_ofNat :
    decodedLength s b = BitVec.ofNat 16 (lo.toNat + 256 * b.toNat) := by
  rw [← decodedLength_toNat_of_cell hcell, BitVec.ofNat_toNat, BitVec.setWidth_eq]

end Length

/-! ## The meanings in terms of the shared operations -/

theorem exec_binLen0 (b : Byte) (s : State) :
    exec (.binLen0 b) s = appending b (sum b) s := rfl

theorem exec_binLen1 (b : Byte) (s : State) :
    exec (.binLen1 b) s = appending b (fun ses =>
      goto .expectPayload { sum b ses with expLen := decodedLength s b }) s := rfl

theorem exec_binLen1Ovf (b : Byte) (s : State) :
    exec (.binLen1Ovf b) s = appending b (fun ses => goto .waitForStart (sum b ses)) s := rfl

theorem exec_binPay (b : Byte) (s : State) :
    exec (.binPay b) s = appending b (sum b) s := rfl

theorem exec_binPayLast (b : Byte) (s : State) :
    exec (.binPayLast b) s = appending b (fun ses => goto .expectCheckA (sum b ses)) s := rfl

theorem exec_binCka (b : Byte) (s : State) :
    exec (.binCka b) s = armed s (goto .expectCheckB s.session) := rfl

theorem exec_binCkaBad (b : Byte) (s : State) :
    exec (.binCkaBad b) s = aborted .checksumMismatch s := rfl

theorem exec_binCkbBad (b : Byte) (s : State) :
    exec (.binCkbBad b) s = aborted .checksumMismatch s := rfl

/-! ## A step that stores and sums its byte -/

/-- Below the capacity, an operation that appends and sums its byte and goes on with `k` completes: it
stores at the cursor `n` alone, and its registers are what `k` makes of the sums and the raised count. -/
theorem stores_and_sums {s : State} {b : Byte} {i : Instr} {n : Nat} (k : Session → Session)
    (hexec : exec i s = appending b (fun ses => k (sum b ses)) s)
    (hbuf : ∀ ses, (k ses).buf = ses.buf) (hn : s.session.wrCnt = n) (hlt : n < s.cfg.C) :
    ∃ t, exec i s = .next t
      ∧ t = { s with session := t.session, effects := [.armTimeout s.cfg.timeoutMs] }
      ∧ t.session = k { s.session with
          wrCnt := n + 1
          acc1 := BitVec.ofNat 8 (s.session.acc1.toNat + b.toNat)
          acc2 := BitVec.ofNat 8
            (s.session.acc2.toNat + (s.session.acc1.toNat + b.toNat) % 256)
          buf := t.session.buf }
      ∧ StoresOnly s t n b := by
  subst hn
  have hcells : (k (sum b (Laws.appended s b))).buf
      = writeCell s.session.buf s.session.wrCnt b := hbuf _
  refine ⟨commit s (k (sum b (Laws.appended s b))) [arm s], ?next, rfl, ?registers, fun c => ?cells⟩
  case next => rw [hexec, Laws.appending_below b _ hlt, armed]
  case registers => rw [Laws.commit_session, hcells, sum_eq_ofNat, Laws.appended]
  case cells => rw [Laws.commit_session, hcells, Laws.readCell_writeCell]

/-! ## Which bytes select each operation -/

section Selection

variable (s : State) (b : Byte)

theorem decode_eq_binLen0_iff :
    decode s (.feed b) = .binLen0 b ↔
      s.session.state = .expectLength ∧ startTaken s (.feed b) = false ∧ s.session.wrCnt = 0 :=
  TextTrack.decode_iff_of_context rfl (by simp [Instr.wellFormed, guardHolds, encode])

theorem decode_eq_binLen1_iff :
    decode s (.feed b) = .binLen1 b ↔
      s.session.state = .expectLength ∧ startTaken s (.feed b) = false ∧ s.session.wrCnt ≠ 0
        ∧ 1 ≤ (decodedLength s b).toNat ∧ (decodedLength s b).toNat ≤ s.cfg.C :=
  TextTrack.decode_iff_of_context rfl (by simp [Instr.wellFormed, guardHolds, encode, and_assoc])

theorem decode_eq_binLen1Ovf_iff :
    decode s (.feed b) = .binLen1Ovf b ↔
      s.session.state = .expectLength ∧ startTaken s (.feed b) = false ∧ s.session.wrCnt ≠ 0
        ∧ s.cfg.C < (decodedLength s b).toNat :=
  TextTrack.decode_iff_of_context rfl (by simp [Instr.wellFormed, guardHolds, encode])

/-- Without I-2 the rows of the payload test for a full buffer, as TXT.APPEND does. -/
theorem decode_eq_binPay_iff :
    decode s (.feed b) = .binPay b ↔
      s.session.state = .expectPayload ∧ startTaken s (.feed b) = false
        ∧ s.session.wrCnt ≠ s.cfg.C ∧ s.session.wrCnt + 1 ≠ s.session.expLen.toNat + 2 :=
  TextTrack.decode_iff_of_context rfl (by simp [Instr.wellFormed, guardHolds, encode])

theorem decode_eq_binPayLast_iff :
    decode s (.feed b) = .binPayLast b ↔
      s.session.state = .expectPayload ∧ startTaken s (.feed b) = false
        ∧ s.session.wrCnt ≠ s.cfg.C ∧ s.session.wrCnt + 1 = s.session.expLen.toNat + 2 :=
  TextTrack.decode_iff_of_context rfl (by simp [Instr.wellFormed, guardHolds, encode])

theorem decode_eq_binCka_iff :
    decode s (.feed b) = .binCka b ↔
      s.session.state = .expectCheckA ∧ startTaken s (.feed b) = false ∧ b = s.session.acc1 :=
  TextTrack.decode_iff_of_context rfl (by simp [Instr.wellFormed, guardHolds, encode])

theorem decode_eq_binCkaBad_iff :
    decode s (.feed b) = .binCkaBad b ↔
      s.session.state = .expectCheckA ∧ startTaken s (.feed b) = false ∧ b ≠ s.session.acc1 :=
  TextTrack.decode_iff_of_context rfl (by simp [Instr.wellFormed, guardHolds, encode])

theorem decode_eq_binCkbBad_iff :
    decode s (.feed b) = .binCkbBad b ↔
      s.session.state = .expectCheckB ∧ startTaken s (.feed b) = false ∧ b ≠ s.session.acc2 :=
  TextTrack.decode_iff_of_context rfl (by simp [Instr.wellFormed, guardHolds, encode])

end Selection

/-! ## The obligations -/

/-- Settles O15: selection by the rows; BIN.CKA is a jump and the other two are the silent abort. -/
theorem binChecksumByteRules : Obligations.BinChecksumByteRules := by
  unfold Obligations.BinChecksumByteRules
  refine fun s b => ⟨decode_eq_binCka_iff s b, decode_eq_binCkaBad_iff s b,
    decode_eq_binCkbBad_iff s b, ?cka, ?ckaBad, ?ckbBad, rfl, rfl⟩
  case cka => rw [exec_binCka, TextTrack.armed_goto]
  case ckaBad => rw [exec_binCkaBad, TextTrack.aborted_eq]
  case ckbBad => rw [exec_binCkbBad, TextTrack.aborted_eq]

/-- Settles O10: selection by the row, and `stores_and_sums` at cell 0 with nothing after the sums. -/
theorem binLenLowRule : Obligations.BinLenLowRule := by
  unfold Obligations.BinLenLowRule
  exact fun s b => ⟨decode_eq_binLen0_iff s b, fun hfirst hroom =>
    stores_and_sums id (exec_binLen0 b s) (fun _ => rfl) hfirst hroom⟩

/-- Settles O11: cell 0 and the byte make the decoded length, on which the two rows divide; both store and
sum the byte at cell 1. -/
theorem binLenHighRules : Obligations.BinLenHighRules := by
  unfold Obligations.BinLenHighRules
  intro s b lo hsecond hcell
  have hne : s.session.wrCnt ≠ 0 := hsecond ▸ Nat.one_ne_zero
  have hlen := decodedLength_toNat_of_cell hcell b
  refine ⟨?fits, ?tooLong, rfl, fun hroom => ⟨?stored, ?dropped⟩⟩
  case fits => rw [decode_eq_binLen1_iff, hlen, and_iff_right hne]
  case tooLong => rw [decode_eq_binLen1Ovf_iff, hlen, and_iff_right hne]
  case stored =>
    rw [← decodedLength_eq_ofNat hcell b]
    exact stores_and_sums (fun ses => goto .expectPayload { ses with expLen := decodedLength s b })
      (exec_binLen1 b s) (fun _ => rfl) hsecond hroom
  case dropped =>
    exact stores_and_sums (goto .waitForStart) (exec_binLen1Ovf b s) (fun _ => rfl) hsecond hroom

/-- Settles O13: I-2 turns the failed test of a full buffer into `wr_cnt < C`; both operations store and
sum the byte at the cursor, and the last one jumps. -/
theorem binPayloadRules : Obligations.BinPayloadRules := by
  unfold Obligations.BinPayloadRules
  refine fun s b => ⟨fun hle => ?_, fun hlt => ⟨?_, ?_⟩⟩
  · rw [hle.lt_iff_ne]
    exact ⟨decode_eq_binPay_iff s b, decode_eq_binPayLast_iff s b⟩
  · exact stores_and_sums id (exec_binPay b s) (fun _ => rfl) rfl hlt
  · exact stores_and_sums (goto .expectCheckA) (exec_binPayLast b s) (fun _ => rfl) rfl hlt

end Sys2Proof.BinaryTrack

/-! SUPPORT. What each operation does, in terms of the shared operations, and what every next state of every
operation has in common: its effects, its configuration, and which operations append, abort or write the
state register alone. -/

namespace Sys2Proof.Meanings

open Sys2Proof.Machine Sys2Proof.Laws

/-! ## The meanings that the tracks above leave out -/

theorem exec_txtEnd2Ok (s : State) :
    exec .txtEnd2Ok s = delivering .frameText 0 s.session.wrCnt s := rfl

theorem exec_binSync2 (s : State) :
    exec .binSync2 s = armed s (goto .expectLength s.session) := rfl

theorem exec_binSync2Bad (b : Byte) (s : State) :
    exec (.binSync2Bad b) s = aborted .syncMismatch s := rfl

theorem exec_binLen1Zero (s : State) :
    exec .binLen1Zero s = appending 0x00 (fun ses =>
      goto .expectCheckA { sum 0x00 ses with expLen := 0x0000 }) s := rfl

theorem exec_binPayOvf (b : Byte) (s : State) :
    exec (.binPayOvf b) s = aborted .bufferOverflow s := rfl

theorem exec_binCkbOk (b : Byte) (s : State) :
    exec (.binCkbOk b) s = delivering .frameBinary 2 s.session.expLen.toNat s := rfl

theorem exec_abort (s : State) :
    exec .abort s = .next (commit s (goto .waitForStart s.session) []) := rfl

theorem exec_reset (s : State) :
    exec .reset s = .next (commit s { Session.reset with buf := s.session.buf } []) := rfl

/-! ## Effects -/

/-- The cells `base` to `base + n - 1`, as a delivery reads them. -/
def cellsFrom (s : State) (base n : Nat) : List Byte :=
  (List.range n).map fun i => cellByte s (base + i)

@[simp] theorem cellsFrom_length (s : State) (base n : Nat) : (cellsFrom s base n).length = n := by
  simp [cellsFrom]

/-- A delivered cell that has been written shows its byte. -/
theorem cellsFrom_getElem? {s : State} {base n i : Nat} {v : Byte} (hi : i < n)
    (hv : readCell s.session.buf (base + i) = some v) : (cellsFrom s base n)[i]? = some v := by
  simp [cellsFrom, hi, cellByte_of_readCell hv]

/-- What an operation that completes emits (R170 to R172, R176, R230). -/
def emitted (s : State) : Instr → List Effect
  | .idleSkip _ | .abort | .reset => []
  | .txtEnd2Ok => [.frameText s.session.wrCnt (cellsFrom s 0 s.session.wrCnt), arm s]
  | .binCkbOk _ => [.frameBinary s.session.expLen.toNat (cellsFrom s 2 s.session.expLen.toNat), arm s]
  | _ => [arm s]

/-- A next state of an operation has the configuration, the power-up contents and the input of the state
before, and the effects of the operation. -/
theorem exec_next {s t : State} {i : Instr} (h : exec i s = .next t) :
    t = commit s t.session (emitted s i) := by
  cases i with
  | startText | startBin | txtCstok | txtHex1 | txtHex2 | txtEnd1 | binSync2 | binCka =>
    obtain rfl := armed_next h; rfl
  | idleSkip | abort | reset => obtain rfl := Host.Outcome.next.inj h; rfl
  | txtNoise | txtOvf | txtHex1Bad | txtHex2Bad | txtEnd1Bad | txtEnd2Bad | txtEnd2Ckfail | binSync2Bad
  | binPayOvf | binCkaBad | binCkbBad =>
    obtain rfl := Host.Outcome.next.inj h; rfl
  | txtAppend | binLen0 | binLen1Ovf | binLen1Zero | binLen1 | binPayLast | binPay =>
    obtain ⟨-, rfl⟩ | ⟨-, rfl⟩ := appending_next h <;> rfl
  | txtEnd2Ok | binCkbOk => obtain ⟨-, rfl⟩ := delivering_next h; rfl

/-! ## The operations that append -/

/-- An operation that appends stores the byte that spells it and goes on without touching the buffer or
the count again. -/
theorem exec_of_appends {i : Instr} (h : (writeSet i).buf = true) (s : State) :
    ∃ b k, encode s.cfg i = .feed b ∧ exec i s = appending b k s
      ∧ ∀ ses, (k ses).buf = ses.buf ∧ (k ses).wrCnt = ses.wrCnt := by
  cases i with
  | txtAppend b => exact ⟨b, _, rfl, TextTrack.exec_txtAppend b s, fun _ => ⟨rfl, rfl⟩⟩
  | binLen0 b => exact ⟨b, _, rfl, BinaryTrack.exec_binLen0 b s, fun _ => ⟨rfl, rfl⟩⟩
  | binLen1Ovf b => exact ⟨b, _, rfl, BinaryTrack.exec_binLen1Ovf b s, fun _ => ⟨rfl, rfl⟩⟩
  | binLen1Zero => exact ⟨0x00, _, rfl, exec_binLen1Zero s, fun _ => ⟨rfl, rfl⟩⟩
  | binLen1 b => exact ⟨b, _, rfl, BinaryTrack.exec_binLen1 b s, fun _ => ⟨rfl, rfl⟩⟩
  | binPayLast b => exact ⟨b, _, rfl, BinaryTrack.exec_binPayLast b s, fun _ => ⟨rfl, rfl⟩⟩
  | binPay b => exact ⟨b, _, rfl, BinaryTrack.exec_binPay b s, fun _ => ⟨rfl, rfl⟩⟩
  | _ => exact absurd h Bool.false_ne_true

/-! ## The operations that write the state register alone -/

/-- An operation whose row marks `state` alone answers a jump. -/
theorem exec_of_stateOnly {s t : State} {i : Instr} (hw : writeSet i = .stateOnly)
    (h : exec i s = .next t) : ∃ f, t.session = goto f s.session := by
  cases i with
  | txtCstok | txtEnd1 | binSync2 | binCka => obtain rfl := armed_next h; exact ⟨_, rfl⟩
  | txtNoise | txtOvf | txtHex1Bad | txtHex2Bad | txtEnd1Bad | txtEnd2Bad | txtEnd2Ckfail | binSync2Bad
  | binPayOvf | binCkaBad | binCkbBad | abort =>
    obtain rfl := Host.Outcome.next.inj h; exact ⟨_, rfl⟩
  | txtEnd2Ok | binCkbOk => obtain ⟨-, rfl⟩ := delivering_next h; exact ⟨_, rfl⟩
  | _ => exact absurd hw (by simp [writeSet, WriteSet.stateOnly])

/-- An operation with an abort cause, other than BIN.LEN1.OVF, jumps to `WaitForStart` (R200). -/
theorem exec_of_abortCause {s t : State} {i : Instr} {c : AbortCause} (hc : abortCauseOf i = some c)
    (hne : ∀ b, i ≠ .binLen1Ovf b) (h : exec i s = .next t) :
    t.session = goto .waitForStart s.session := by
  cases i with
  | binLen1Ovf b => exact absurd rfl (hne b)
  | txtNoise | txtOvf | txtHex1Bad | txtHex2Bad | txtEnd1Bad | txtEnd2Bad | txtEnd2Ckfail | binSync2Bad
  | binPayOvf | binCkaBad | binCkbBad | abort =>
    obtain rfl := Host.Outcome.next.inj h; rfl
  | _ => exact absurd hc nofun

/-! ## The step -/

theorem step_of_nil {s : State} (h : s.input = []) : step s = .next (holdIdle s) := by
  simp [step, takeEvent, h]

/-- A step performs what its oldest event decodes to, on the state without that event (R12, R79). -/
theorem step_of_cons {s : State} {e : Event} {rest : List Event} (h : s.input = e :: rest) :
    step s = exec (decode s e) { s with input := rest } := by
  simp only [step, takeEvent, h, performEvent]
  rfl

/-- Everything a step can answer as a next state: it had no event, or it performed the operation that the
oldest event selects. -/
theorem step_next {s t : State} (h : step s = .next t) :
    (s.input = [] ∧ t = holdIdle s)
    ∨ ∃ e rest, s.input = e :: rest ∧ exec (decode s e) { s with input := rest } = .next t := by
  cases hin : s.input with
  | nil =>
    rw [step_of_nil hin] at h
    exact .inl ⟨rfl, (Host.Outcome.next.inj h).symm⟩
  | cons e rest =>
    rw [step_of_cons hin] at h
    exact .inr ⟨e, rest, rfl, h⟩

/-- The operation a step performs is selected in the state it is performed on, which differs from the one it
was decoded in by the events that wait. -/
theorem selects_decode (s : State) (e : Event) (rest : List Event) :
    selects { s with input := rest } (decode s e) = true :=
  (Encoding.rowOf_decode { s with input := rest } e).selected

end Sys2Proof.Meanings

/-! SUPPORT. The invariants of the Session (spec 10_state.md R35): what the buffer satisfies in every
state, what each value of `state` adds, and that every operation its row selects keeps both. -/

namespace Sys2Proof.Invariants

open Sys2Proof.Machine Sys2Proof.Laws Sys2Proof.Meanings

/-! ## The two checksums, one byte at a time -/

theorem textChecksum_concat (p : List Byte) (b : Byte) :
    textChecksum (p ++ [b]) = textChecksum p ^^^ b := by
  simp [textChecksum, List.foldl_append]

theorem runningSums_concat (d : List Byte) (b : Byte) :
    runningSums (d ++ [b]) = runningSum (runningSums d) b := by
  simp [runningSums, List.foldl_append]

/-! ## The bytes written so far -/

@[simp] theorem written_length (s : State) : (written s).length = s.session.wrCnt := by
  simp [written]

theorem written_eq_nil {s : State} (h : s.session.wrCnt = 0) : written s = [] := by
  simp [written, h]

/-- The bytes written so far depend on the buffer, the count and the power-up contents alone. -/
theorem written_congr {s t : State} (hbuf : t.session.buf = s.session.buf)
    (hcnt : t.session.wrCnt = s.session.wrCnt) (hup : t.powerUp = s.powerUp) :
    written t = written s := by
  simp [written, cellByte, hbuf, hcnt, hup]

/-- An append puts its byte behind the bytes written so far. -/
theorem written_appended {s t : State} {b : Byte}
    (hbuf : t.session.buf = writeCell s.session.buf s.session.wrCnt b)
    (hcnt : t.session.wrCnt = s.session.wrCnt + 1) (hup : t.powerUp = s.powerUp) :
    written t = written s ++ [b] := by
  have hbelow : ∀ a ∈ List.range s.session.wrCnt, cellByte t a = cellByte s a := fun a ha => by
    have hne : a ≠ s.session.wrCnt := (List.mem_range.mp ha).ne
    simp [cellByte, hbuf, hup, readCell_writeCell, hne]
  have hlast : cellByte t s.session.wrCnt = b := cellByte_of_readCell (by simp [hbuf])
  rw [written, hcnt, List.range_succ, List.map_append, List.map_congr_left hbelow, List.map_singleton,
    hlast, written]

/-! ## The two halves of the invariants -/

/-- What the invariants say in every state: of the buffer, the count and `exp_len`. -/
structure Stored (s : State) : Prop where
  canonical : Memory.wf s.session.buf = true
  inside : ∀ c ∈ s.session.buf, c.1 < s.cfg.C
  cursor : s.session.wrCnt ≤ s.cfg.C
  cells : ∀ a < s.session.wrCnt, (readCell s.session.buf a).isSome = true
  length : s.session.expLen.toNat ≤ s.cfg.C

/-- The running sums are those of the bytes written (I-7). -/
def Summed (s : State) : Prop :=
  (s.session.acc1, s.session.acc2) = runningSums (written s)

/-- What the invariants say of each value of `state`. -/
def StateLaw (s : State) : Prop :=
  match s.session.state with
  | .waitForStart => True
  | .expectPayloadOrChecksumTok | .expectChecksumHex1 =>
    s.session.proto = .text ∧ s.session.xorAcc = textChecksum (written s)
  | .expectChecksumHex2 =>
    s.session.proto = .text
      ∧ ∃ h1 : Nibble, s.session.xorAcc = textChecksum (written s) ^^^ highNibble h1
  | .expectEnd1 | .expectEnd2 => s.session.proto = .text
  | .expectSync2 => s.session.proto = .binary ∧ s.session.wrCnt = 0 ∧ Summed s
  | .expectLength => s.session.proto = .binary ∧ s.session.wrCnt ≤ 1 ∧ Summed s
  | .expectPayload =>
    s.session.proto = .binary
      ∧ (2 ≤ s.session.wrCnt ∧ s.session.wrCnt < s.session.expLen.toNat + 2
        ∧ 1 ≤ s.session.expLen.toNat) ∧ Summed s
  | .expectCheckA | .expectCheckB =>
    s.session.proto = .binary ∧ s.session.wrCnt = s.session.expLen.toNat + 2 ∧ Summed s

theorem stored_of_inv {s : State} (h : Inv s) : Stored s :=
  ⟨h.canonical, h.inside, h.cursor, h.cells, h.length⟩

theorem stateLaw_of_inv {s : State} (h : Inv s) : StateLaw s := by
  obtain ⟨-, -, -, -, -, htext, hbin, hsync2, hlength, hpayload, hcheck, hxor, hxorHigh, hsum⟩ := h
  unfold StateLaw
  cases hst : s.session.state with
  | waitForStart => exact trivial
  | expectPayloadOrChecksumTok => exact ⟨htext (by rw [hst]; rfl), hxor (.inl hst)⟩
  | expectChecksumHex1 => exact ⟨htext (by rw [hst]; rfl), hxor (.inr hst)⟩
  | expectChecksumHex2 => exact ⟨htext (by rw [hst]; rfl), hxorHigh hst⟩
  | expectEnd1 | expectEnd2 => exact htext (by rw [hst]; rfl)
  | expectSync2 => exact ⟨hbin (by rw [hst]; rfl), hsync2 hst, hsum (by rw [hst]; rfl)⟩
  | expectLength => exact ⟨hbin (by rw [hst]; rfl), hlength hst, hsum (by rw [hst]; rfl)⟩
  | expectPayload => exact ⟨hbin (by rw [hst]; rfl), hpayload hst, hsum (by rw [hst]; rfl)⟩
  | expectCheckA => exact ⟨hbin (by rw [hst]; rfl), hcheck (.inl hst), hsum (by rw [hst]; rfl)⟩
  | expectCheckB => exact ⟨hbin (by rw [hst]; rfl), hcheck (.inr hst), hsum (by rw [hst]; rfl)⟩

theorem inv_of_halves {s : State} (hstored : Stored s) (hlaw : StateLaw s) : Inv s := by
  obtain ⟨hcanonical, hinside, hcursor, hcells, hlength⟩ := hstored
  unfold StateLaw at hlaw
  refine ⟨hcanonical, hinside, hcursor, hcells, hlength, ?textMode, ?binaryMode, ?atSync2, ?atLength,
    ?atPayload, ?atCheck, ?xorLaw, ?xorLawHigh, ?sumLaw⟩
  case atSync2 | atLength | atPayload =>
    intro hst
    simp only [hst] at hlaw
    obtain ⟨-, hcount, -⟩ := hlaw
    exact hcount
  case atCheck =>
    rintro (hst | hst) <;> simp only [hst] at hlaw <;> exact hlaw.2.1
  case xorLaw => rintro (hst | hst) <;> simp only [hst] at hlaw <;> exact hlaw.2
  case xorLawHigh =>
    intro hst
    simp only [hst] at hlaw
    exact hlaw.2
  case textMode =>
    intro htrack
    cases hst : s.session.state <;> simp_all [FsmState.inTextTrack]
  case binaryMode | sumLaw =>
    intro htrack
    cases hst : s.session.state <;> simp_all [FsmState.inBinaryTrack, Summed]

/-! ## What the shared operations keep -/

section Keep

variable {s : State} {ses : Session} {effs : List Effect} {b : Byte}

/-- A step that leaves the buffer alone and does not raise the count keeps the first half. -/
theorem stored_commit (h : Stored s) (hbuf : ses.buf = s.session.buf)
    (hcnt : ses.wrCnt ≤ s.session.wrCnt) (hlen : ses.expLen.toNat ≤ s.cfg.C) :
    Stored (commit s ses effs) where
  canonical := by rw [commit_session, hbuf]; exact h.canonical
  inside := by rw [commit_session, hbuf]; exact h.inside
  cursor := hcnt.trans h.cursor
  cells := fun a ha => by rw [commit_session, hbuf]; exact h.cells a (ha.trans_le hcnt)
  length := hlen

/-- An append below the capacity keeps the first half. -/
theorem stored_commit_appended (h : Stored s) (hlt : s.session.wrCnt < s.cfg.C)
    (hbuf : ses.buf = writeCell s.session.buf s.session.wrCnt b)
    (hcnt : ses.wrCnt = s.session.wrCnt + 1) (hlen : ses.expLen.toNat ≤ s.cfg.C) :
    Stored (commit s ses effs) where
  canonical := by rw [commit_session, hbuf]; exact wf_writeCell _ _ h.canonical
  inside := fun c hc => by
    rw [commit_session, hbuf] at hc
    rcases mem_writeCell hc with hnew | hold
    · exact hnew ▸ hlt
    · exact h.inside c hold
  cursor := by rw [commit_session, hcnt]; exact hlt
  cells := fun a ha => by
    rw [commit_session, hcnt] at ha
    rw [commit_session, hbuf, readCell_writeCell]
    split_ifs with hlast
    · rfl
    · exact h.cells a (by omega)
  length := hlen

/-- The invariants do not read the events that wait. -/
theorem inv_withInput {rest : List Event} (h : Inv s) : Inv { s with input := rest } :=
  inv_of_halves ⟨h.canonical, h.inside, h.cursor, h.cells, h.length⟩ (stateLaw_of_inv h :)

/-- Every jump to `WaitForStart` keeps the invariants. -/
theorem inv_commit_idle (h : Inv s) : Inv (commit s (goto .waitForStart s.session) effs) :=
  inv_of_halves (stored_commit (stored_of_inv h) rfl le_rfl h.length) trivial

/-- An append that sums its byte carries the running sums on. -/
theorem summed_of_written {t : State} (h : Summed s) (hw : written t = written s ++ [b])
    (hacc : (t.session.acc1, t.session.acc2) = runningSum (s.session.acc1, s.session.acc2) b) :
    Summed t := by
  rw [Summed, hw, runningSums_concat, ← h]
  exact hacc

end Keep

/-! ## Every selected operation keeps the invariants -/

section Exec

variable {s t : State} {i : Instr} {b : Byte} {c : FsmState}

/-- A selected operation of step 2 stands in the state of its row, and the row's guard holds. -/
theorem row_of_selects (hsel : selects s i = true) (hc : contextOf i = some c) :
    s.session.state = c ∧ guardHolds s i = true := by
  obtain ⟨hst, hg, -⟩ := (Encoding.selects_iff_of_context hc).mp hsel
  exact ⟨hst, hg⟩

/-- An operation that appends keeps the invariants if its stored byte, now behind those written before,
makes the law of the target state true; the overflow branch always keeps them. -/
theorem inv_of_appending {k : Session → Session} (h : Inv s) (ht : appending b k s = .next t)
    (hk : ∀ ses, (k ses).buf = ses.buf ∧ (k ses).wrCnt = ses.wrCnt)
    (hlen : (k (appended s b)).expLen.toNat ≤ s.cfg.C)
    (hlaw : written t = written s ++ [b] → t.session = k (appended s b) → StateLaw t) : Inv t := by
  obtain ⟨hbuf, hcnt⟩ := hk (appended s b)
  obtain ⟨hlt, rfl⟩ | ⟨-, rfl⟩ := appending_next ht
  · exact inv_of_halves (stored_commit_appended (stored_of_inv h) hlt hbuf hcnt hlen)
      (hlaw (written_appended hbuf hcnt rfl) rfl)
  · exact inv_commit_idle h

/-- An operation that appends and sums its byte carries the running sums to the law of the target state. -/
theorem inv_of_summing {k : Session → Session} (h : Inv s) (hsum : Summed s)
    (ht : appending b k s = .next t)
    (hk : ∀ ses, k ses = { sum b ses with state := (k ses).state, expLen := (k ses).expLen })
    (hlen : (k (appended s b)).expLen.toNat ≤ s.cfg.C)
    (hlaw : t.session = k (appended s b) → Summed t → StateLaw t) : Inv t := by
  have hses := hk (appended s b)
  refine inv_of_appending h ht (fun ses => ⟨by rw [hk ses]; rfl, by rw [hk ses]; rfl⟩) hlen
    fun hw ht => hlaw ht (summed_of_written hsum hw ?_)
  rw [ht, hses]
  rfl

/-- A jump keeps the invariants when it meets the law of its target. -/
theorem inv_of_armed {ses : Session} (h : Inv s) (ht : armed s ses = .next t)
    (hbuf : ses.buf = s.session.buf) (hcnt : ses.wrCnt ≤ s.session.wrCnt)
    (hlen : ses.expLen = s.session.expLen)
    (hlaw : t.session = ses → (ses.wrCnt = s.session.wrCnt → written t = written s) → StateLaw t) :
    Inv t := by
  obtain rfl := armed_next ht
  exact inv_of_halves (stored_commit (stored_of_inv h) hbuf hcnt (hlen ▸ h.length))
    (hlaw rfl fun hcnt => written_congr hbuf hcnt rfl)

/-- The operations of the text track keep the invariants. -/
theorem text_exec_keeps_inv (h : Inv s) (hsel : selects s i = true) (hc : contextOf i = some c)
    (htrack : c.inTextTrack = true) (ht : exec i s = .next t) : Inv t := by
  have hl := stateLaw_of_inv h
  cases i with
  | txtCstok =>
    obtain ⟨hst, -⟩ := row_of_selects hsel rfl
    simp only [StateLaw, hst] at hl
    refine inv_of_armed h ht rfl le_rfl rfl fun hses hw => ?_
    simpa [StateLaw, hses, hw rfl] using hl
  | txtAppend b =>
    obtain ⟨hst, -⟩ := row_of_selects hsel rfl
    obtain ⟨hproto, hxor⟩ : _ ∧ _ := by simpa only [StateLaw, hst] using hl
    refine inv_of_appending h ht (fun _ => ⟨rfl, rfl⟩) h.length fun hw hses => ?_
    simp only [StateLaw, hses, hw, absorb_state, appended_state, hst]
    exact ⟨hproto, by rw [textChecksum_concat, ← hxor]; rfl⟩
  | txtHex1 d =>
    obtain ⟨hst, -⟩ := row_of_selects hsel rfl
    obtain ⟨hproto, hxor⟩ : _ ∧ _ := by simpa only [StateLaw, hst] using hl
    refine inv_of_armed h ht rfl le_rfl rfl fun hses hw => ?_
    simp only [StateLaw, hses, hw rfl, goto_state]
    exact ⟨hproto, d, congrArg (· ^^^ highNibble d) hxor⟩
  | txtHex2 d =>
    obtain ⟨hst, -⟩ := row_of_selects hsel rfl
    obtain ⟨hproto, -⟩ : _ ∧ _ := by simpa only [StateLaw, hst] using hl
    refine inv_of_armed h ht rfl le_rfl rfl fun hses _ => ?_
    simpa [StateLaw, hses] using hproto
  | txtEnd1 =>
    obtain ⟨hst, -⟩ := row_of_selects hsel rfl
    refine inv_of_armed h ht rfl le_rfl rfl fun hses _ => ?_
    simpa [StateLaw, hses, hst] using hl
  | txtEnd2Ok =>
    obtain ⟨-, rfl⟩ := delivering_next ht
    exact inv_commit_idle h
  | txtNoise | txtOvf | txtHex1Bad | txtHex2Bad | txtEnd1Bad | txtEnd2Bad | txtEnd2Ckfail =>
    obtain rfl := Host.Outcome.next.inj ht
    exact inv_commit_idle h
  | startText | startBin | abort | reset => exact absurd hc nofun
  | _ => cases hc; exact absurd htrack Bool.false_ne_true

/-- The operations of the binary track keep the invariants. -/
theorem binary_exec_keeps_inv (h : Inv s) (hsel : selects s i = true) (hc : contextOf i = some c)
    (htrack : c.inBinaryTrack = true) (ht : exec i s = .next t) : Inv t := by
  have hl := stateLaw_of_inv h
  cases i with
  | binSync2 =>
    obtain ⟨hst, -⟩ := row_of_selects hsel rfl
    obtain ⟨hproto, hcnt, hsum⟩ : _ ∧ _ ∧ _ := by simpa only [StateLaw, hst] using hl
    refine inv_of_armed h ht rfl le_rfl rfl fun hses hw => ?_
    simp only [StateLaw, Summed, hses, hw rfl, goto_state]
    exact ⟨hproto, hcnt.trans_le (Nat.zero_le 1), hsum⟩
  | binLen0 b =>
    obtain ⟨hst, hg⟩ := row_of_selects hsel rfl
    obtain ⟨hproto, -, hsum⟩ : _ ∧ _ ∧ _ := by simpa only [StateLaw, hst] using hl
    have hcnt : s.session.wrCnt = 0 := by simpa [guardHolds] using hg
    refine inv_of_summing h hsum ht (fun _ => rfl) h.length fun hses hsum' => ?_
    simp [StateLaw, hses, hst, hproto, hcnt, hsum']
  | binLen1 b =>
    obtain ⟨hst, hg⟩ := row_of_selects hsel rfl
    obtain ⟨hproto, hcnt, hsum⟩ : _ ∧ _ ∧ _ := by simpa only [StateLaw, hst] using hl
    obtain ⟨⟨hsecond, hpos⟩, hfits⟩ : (s.session.wrCnt ≠ 0 ∧ 1 ≤ (decodedLength s b).toNat)
        ∧ (decodedLength s b).toNat ≤ s.cfg.C := by simpa [guardHolds] using hg
    refine inv_of_summing h hsum ht (fun _ => rfl) hfits fun hses hsum' => ?_
    simp only [StateLaw, hses, goto_state, goto_proto, goto_wrCnt, goto_expLen, sum_proto, sum_wrCnt,
      appended_proto, appended_wrCnt]
    exact ⟨hproto, by omega, hsum'⟩
  | binLen1Zero =>
    obtain ⟨hst, hg⟩ := row_of_selects hsel rfl
    obtain ⟨hproto, hcnt, hsum⟩ : _ ∧ _ ∧ _ := by simpa only [StateLaw, hst] using hl
    obtain ⟨hsecond, -⟩ : s.session.wrCnt ≠ 0 ∧ _ := by simpa [guardHolds] using hg
    refine inv_of_summing h hsum ht (fun _ => rfl) (Nat.zero_le _) fun hses hsum' => ?_
    simp only [StateLaw, hses, goto_state, goto_proto, goto_wrCnt, goto_expLen, sum_proto, sum_wrCnt,
      appended_proto, appended_wrCnt]
    exact ⟨hproto, by simp; omega, hsum'⟩
  | binPay b =>
    obtain ⟨hst, hg⟩ := row_of_selects hsel rfl
    obtain ⟨hproto, hcnt, hsum⟩ : _ ∧ _ ∧ _ := by simpa only [StateLaw, hst] using hl
    obtain ⟨-, hmore⟩ : _ ∧ s.session.wrCnt + 1 ≠ s.session.expLen.toNat + 2 := by
      simpa [guardHolds] using hg
    refine inv_of_summing h hsum ht (fun _ => rfl) h.length fun hses hsum' => ?_
    simp only [StateLaw, hses, hst, sum_state, sum_proto, sum_wrCnt, sum_expLen, appended_state,
      appended_proto, appended_wrCnt, appended_expLen]
    exact ⟨hproto, by omega, hsum'⟩
  | binPayLast b =>
    obtain ⟨hst, hg⟩ := row_of_selects hsel rfl
    obtain ⟨hproto, -, hsum⟩ : _ ∧ _ ∧ _ := by simpa only [StateLaw, hst] using hl
    obtain ⟨-, hlast⟩ : _ ∧ s.session.wrCnt + 1 = s.session.expLen.toNat + 2 := by
      simpa [guardHolds] using hg
    refine inv_of_summing h hsum ht (fun _ => rfl) h.length fun hses hsum' => ?_
    simp only [StateLaw, hses, goto_state, goto_proto, goto_wrCnt, goto_expLen, sum_proto, sum_wrCnt,
      sum_expLen, appended_proto, appended_wrCnt, appended_expLen]
    exact ⟨hproto, hlast, hsum'⟩
  | binCka b =>
    obtain ⟨hst, -⟩ := row_of_selects hsel rfl
    obtain ⟨hproto, hcnt, hsum⟩ : _ ∧ _ ∧ _ := by simpa only [StateLaw, hst] using hl
    refine inv_of_armed h ht rfl le_rfl rfl fun hses hw => ?_
    simp only [StateLaw, Summed, hses, hw rfl, goto_state]
    exact ⟨hproto, hcnt, hsum⟩
  | binLen1Ovf b =>
    refine inv_of_appending h ht (fun _ => ⟨rfl, rfl⟩) h.length fun _ hses => ?_
    simp [StateLaw, hses]
  | binCkbOk =>
    obtain ⟨-, rfl⟩ := delivering_next ht
    exact inv_commit_idle h
  | binSync2Bad | binPayOvf | binCkaBad | binCkbBad =>
    obtain rfl := Host.Outcome.next.inj ht
    exact inv_commit_idle h
  | startText | startBin | abort | reset => exact absurd hc nofun
  | _ => cases hc; exact absurd htrack Bool.false_ne_true

/-- The invariants are kept by every operation in the states where its row selects it. -/
theorem exec_keeps_inv (h : Inv s) (hsel : selects s i = true) (ht : exec i s = .next t) : Inv t := by
  cases i with
  | idleSkip b =>
    obtain rfl := Host.Outcome.next.inj ht
    exact inv_of_halves (stored_commit (stored_of_inv h) rfl le_rfl h.length) (stateLaw_of_inv h :)
  | startText =>
    refine inv_of_armed h ht rfl (Nat.zero_le _) rfl fun hses _ => ?_
    have hw : written t = [] := written_eq_nil (by rw [hses])
    simp [StateLaw, hses, hw, textChecksum]
  | startBin =>
    refine inv_of_armed h ht rfl (Nat.zero_le _) rfl fun hses _ => ?_
    have hw : written t = [] := written_eq_nil (by rw [hses])
    simp [StateLaw, Summed, hses, hw, runningSums]
  | abort =>
    obtain rfl := Host.Outcome.next.inj ht
    exact inv_commit_idle h
  | reset =>
    obtain rfl := Host.Outcome.next.inj ht
    exact inv_of_halves (stored_commit (stored_of_inv h) rfl (Nat.zero_le _) (Nat.zero_le _)) trivial
  | txtNoise | txtCstok | txtOvf | txtAppend | txtHex1 | txtHex1Bad | txtHex2 | txtHex2Bad | txtEnd1
  | txtEnd1Bad | txtEnd2Bad | txtEnd2Ok | txtEnd2Ckfail => exact text_exec_keeps_inv h hsel rfl rfl ht
  | _ => exact binary_exec_keeps_inv h hsel rfl rfl ht

end Exec

/-! ## The obligations -/

theorem step_keeps_inv {s t : State} (h : Inv s) (ht : step s = .next t) : Inv t := by
  obtain ⟨-, rfl⟩ | ⟨e, rest, -, hexec⟩ := step_next ht
  · exact inv_of_halves ⟨h.canonical, h.inside, h.cursor, h.cells, h.length⟩ (stateLaw_of_inv h :)
  · exact exec_keeps_inv (inv_withInput h) (selects_decode s e rest) hexec

/-- Settles O30: the operation a step performs is the one whose row its event selects, and every such
operation keeps the two halves of the invariants (`exec_keeps_inv`). -/
theorem everyStepKeepsInvariants : Obligations.EveryStepKeepsInvariants := by
  unfold Obligations.EveryStepKeepsInvariants
  exact fun s t h ht => step_keeps_inv h ht

/-- Settles O31: after reset no cell is written, the count is zero and the state is `WaitForStart`. -/
theorem invariantsAfterReset : Obligations.InvariantsAfterReset := by
  unfold Obligations.InvariantsAfterReset
  refine inv_of_halves ⟨wf_reset, nofun, Nat.zero_le _, nofun, Nat.zero_le _⟩ trivial

end Sys2Proof.Invariants

/-! SUPPORT. The operation rules that remain: the two deliveries (spec 41_text_track.md R120,
42_binary_track.md R152), the second sync byte (R141, R142), the zero length (R145), the payload byte at a
full buffer (R149), and the two events without a byte (R176, R230). -/

namespace Sys2Proof.OperationRules

open Sys2Proof.Machine Sys2Proof.Laws Sys2Proof.Meanings

/-! ## Which bytes select each operation -/

section Selection

variable (s : State) (b : Byte)

theorem decode_eq_txtEnd2Ok_iff :
    decode s (.feed b) = .txtEnd2Ok ↔
      s.session.state = .expectEnd2 ∧ startTaken s (.feed b) = false ∧ b = s.cfg.textEnd2
        ∧ s.session.xorAcc = 0 :=
  TextTrack.decode_iff_of_context rfl (by
    simp only [Instr.wellFormed, guardHolds, encode, true_and, beq_iff_eq, Event.feed.injEq]
    rw [and_comm, eq_comm])

theorem decode_eq_binSync2_iff :
    decode s (.feed b) = .binSync2 ↔
      s.session.state = .expectSync2 ∧ startTaken s (.feed b) = false ∧ b = s.cfg.binSync2 :=
  TextTrack.decode_iff_of_context rfl (by simp [Instr.wellFormed, guardHolds, encode, eq_comm])

theorem decode_eq_binSync2Bad_iff :
    decode s (.feed b) = .binSync2Bad b ↔
      s.session.state = .expectSync2 ∧ startTaken s (.feed b) = false ∧ b ≠ s.cfg.binSync2 :=
  TextTrack.decode_iff_of_context rfl (by simp [Instr.wellFormed, guardHolds, encode])

theorem decode_eq_binLen1Zero_iff :
    decode s (.feed b) = .binLen1Zero ↔
      s.session.state = .expectLength ∧ startTaken s (.feed b) = false ∧ s.session.wrCnt ≠ 0
        ∧ cellByte s 0 = 0 ∧ b = 0 := by
  have hspell : encode s.cfg .binLen1Zero = .feed b ↔ b = 0 := by
    rw [encode, Event.feed.injEq, eq_comm]
  exact TextTrack.decode_iff_of_context rfl
    (by simp [Instr.wellFormed, guardHolds, hspell, and_assoc])

theorem decode_eq_binPayOvf_iff :
    decode s (.feed b) = .binPayOvf b ↔
      s.session.state = .expectPayload ∧ startTaken s (.feed b) = false
        ∧ s.session.wrCnt = s.cfg.C :=
  TextTrack.decode_iff_of_context rfl (by simp [Instr.wellFormed, guardHolds, encode])

theorem decode_eq_binCkbOk_iff :
    decode s (.feed b) = .binCkbOk b ↔
      s.session.state = .expectCheckB ∧ startTaken s (.feed b) = false ∧ b = s.session.acc2 :=
  TextTrack.decode_iff_of_context rfl (by simp [Instr.wellFormed, guardHolds, encode])

end Selection

/-! ## A delivery -/

/-- A delivery whose range lies in the buffer completes: only `state` changes, the frame carries `n` bytes,
and a byte whose cell has been written is what the cell holds. -/
theorem delivers {s : State} {i : Instr} {frame : Nat → List Byte → Effect} {base n : Nat}
    (hexec : exec i s = delivering frame base n s) (hin : n = 0 ∨ base + n ≤ s.cfg.C) :
    ∃ t bytes, exec i s = .next t
      ∧ t = { s with session := { s.session with state := .waitForStart }, effects := t.effects }
      ∧ t.effects.Perm [frame n bytes, .armTimeout s.cfg.timeoutMs]
      ∧ bytes.length = n
      ∧ ∀ j v, j < n → readCell s.session.buf (base + j) = some v → bytes[j]? = some v := by
  refine ⟨_, cellsFrom s base n, hexec.trans (delivering_inside frame base n hin), rfl, .refl _,
    cellsFrom_length s base n, fun j v hj hv => cellsFrom_getElem? hj hv⟩

/-! ## The obligations -/

/-- Settles O8: selection by the row, and `delivers` from cell 0. -/
theorem textDeliveryRule : Obligations.TextDeliveryRule := by
  unfold Obligations.TextDeliveryRule
  refine fun s => ⟨decode_eq_txtEnd2Ok_iff s, fun hle => ?_⟩
  have h := delivers (exec_txtEnd2Ok s) (.inr ((Nat.zero_add _).trans_le hle))
  simpa only [Nat.zero_add] using h

/-- Settles O12: selection by the row, where cell 0 reads `lo`; a zero byte is stored and summed at cell 1,
which leaves the first sum alone. -/
theorem binLenZeroRule : Obligations.BinLenZeroRule := by
  unfold Obligations.BinLenZeroRule
  intro s b lo hsecond hcell
  have hne : s.session.wrCnt ≠ 0 := hsecond ▸ Nat.one_ne_zero
  refine ⟨?selection, fun hroom => ?meaning⟩
  case selection => rw [decode_eq_binLen1Zero_iff, cellByte_of_readCell hcell, and_iff_right hne]
  case meaning =>
    obtain ⟨t, hexec, hframe, hregs, hcells⟩ := BinaryTrack.stores_and_sums
      (fun ses => goto .expectCheckA { ses with expLen := 0x0000 }) (exec_binLen1Zero s)
      (fun _ => rfl) hsecond hroom
    have hkeep : s.session.acc1.toNat % 256 = s.session.acc1.toNat :=
      Nat.mod_eq_of_lt s.session.acc1.isLt
    refine ⟨t, hexec, hframe, hregs.trans ?_, hcells⟩
    simp [goto, hkeep]

/-- Settles O16: selection by the row, and `delivers` from cell 2 on. -/
theorem binDeliveryRule : Obligations.BinDeliveryRule := by
  unfold Obligations.BinDeliveryRule
  refine fun s b => ⟨decode_eq_binCkbOk_iff s b, fun hfits => ?_⟩
  refine delivers (exec_binCkbOk b s) (hfits.imp (fun h => ?_) (fun h => ?_))
  · rw [h]; rfl
  · omega

/-- Settles O9: selection by the rows; one meaning is a jump and the other the silent abort. -/
theorem binSyncRules : Obligations.BinSyncRules := by
  unfold Obligations.BinSyncRules
  refine fun s b => ⟨decode_eq_binSync2_iff s b, decode_eq_binSync2Bad_iff s b, ?sync2, ?bad, rfl⟩
  case sync2 => rw [exec_binSync2, TextTrack.armed_goto]
  case bad => rw [exec_binSync2Bad, TextTrack.aborted_eq]

/-- Settles O14: selection by the row, and the silent abort. -/
theorem binPayloadOverflowRule : Obligations.BinPayloadOverflowRule := by
  unfold Obligations.BinPayloadOverflowRule
  refine fun s b => ⟨decode_eq_binPayOvf_iff s b, ?_, rfl⟩
  rw [exec_binPayOvf, TextTrack.aborted_eq]

/-- A jump to the state the Session is in changes nothing. -/
theorem goto_self {f : FsmState} {ses : Session} (h : ses.state = f) : goto f ses = ses := by
  subst h; rfl

/-- Settles O17: ABORT is the jump to `WaitForStart` without effects, which is no change there. -/
theorem abortEventRule : Obligations.AbortEventRule := by
  unfold Obligations.AbortEventRule
  refine fun s => ⟨rfl, exec_abort s, fun hidle => ?_, rfl⟩
  rw [exec_abort, goto_self hidle, commit]

/-- Settles O18: RESET commits the reset values over the buffer as it stands. -/
theorem resetEventRule : Obligations.ResetEventRule := by
  unfold Obligations.ResetEventRule
  exact fun s => ⟨rfl, exec_reset s⟩

/-- Settles O19: the reset values are those of `Session.reset`, whose buffer lists no cell. -/
theorem sessionAfterReset : Obligations.SessionAfterReset := by
  unfold Obligations.SessionAfterReset
  exact ⟨rfl, rfl, rfl, rfl, rfl, rfl, rfl, fun _ => rfl, rfl⟩

end Sys2Proof.OperationRules

/-! SUPPORT. The opcode table as a decoder (spec 30_encoding.md R85), the hex digit codes (R75), words
written out, and table words on their own. -/

namespace Sys2Proof.TableDecoder

open Sys2Proof.Machine

/-! ## Rows in priority order -/

/-- In a list whose priorities rise, the row of least priority number is the first one. -/
theorem leastPriority_of_rising {l : List Row} (h : l.Pairwise fun r q => r.priority < q.priority) :
    leastPriority l = l.head? := by
  cases l with
  | nil => rfl
  | cons r rest =>
    obtain ⟨hr, hrest⟩ := List.pairwise_cons.mp h
    have ih := leastPriority_of_rising hrest
    cases rest with
    | nil => rfl
    | cons q rest =>
      have hlt : r.priority < q.priority := hr q List.mem_cons_self
      simp [leastPriority] at ih ⊢
      simp [ih, hlt.le]

/-- The rows that stand in a state, in the table's order. -/
def rowsAt (f : FsmState) : List Row := opcodeRows.filter fun r => r.contexts.contains f

/-- In every state the table lists its rows in priority order (R85). -/
theorem rowsAt_rising (f : FsmState) :
    (rowsAt f).Pairwise fun r q => r.priority < q.priority := by
  have hprio : ((rowsAt f).map Row.priority).Pairwise (· < ·) := by cases f <;> decide
  exact List.pairwise_map.mp hprio

/-- The operation of the first row whose condition holds. -/
def firstOf (l : List Row) (s : State) (b : Byte) : Option Instr :=
  (l.find? fun r => r.holds s b).map fun r => r.instr b

@[simp] theorem firstOf_nil (s : State) (b : Byte) : firstOf [] s b = none := rfl

@[simp] theorem firstOf_cons (r : Row) (l : List Row) (s : State) (b : Byte) :
    firstOf (r :: l) s b = if r.holds s b = true then some (r.instr b) else firstOf l s b := by
  rw [firstOf, List.find?_cons]
  cases r.holds s b <;> rfl

/-- The table decoder takes the first row of the state whose condition holds. -/
theorem tableDecode_eq_firstOf (s : State) (b : Byte) :
    tableDecode s b = firstOf (rowsAt s.session.state) s b := by
  have hrows : (opcodeRows.filter fun r => r.contexts.contains s.session.state && r.holds s b)
      = (rowsAt s.session.state).filter fun r => r.holds s b := by
    rw [rowsAt, List.filter_filter]
    simp only [Bool.and_comm]
  rw [tableDecode, hrows, leastPriority_of_rising ((rowsAt_rising _).filter _), List.head?_filter,
    firstOf]

/-! ## Step 2 read from the table -/

/-- The rows of step 2 that stand in a state: all but the start-token test. -/
def rowsInState (f : FsmState) : List Row := (rowsAt f).filter fun r => !r.startTest

/-- With I-2 and I-5 one of the rows of step 2 always holds, and the first is what the ordered tests of
the state find. -/
theorem firstOf_rowsInState {s : State} (b : Byte) (hcursor : s.session.wrCnt ≤ s.cfg.C)
    (hlength : s.session.state = .expectLength → s.session.wrCnt ≤ 1) :
    firstOf (rowsInState s.session.state) s b = some (decodeInState s b) := by
  cases hst : s.session.state with
  | waitForStart => rw [Encoding.decodeInState_waitForStart hst]; rfl
  | expectPayloadOrChecksumTok =>
    have hrows : rowsInState .expectPayloadOrChecksumTok = textRows.take 4 := rfl
    have hroom : s.session.wrCnt ≠ s.cfg.C → s.session.wrCnt < s.cfg.C := hcursor.lt_of_ne
    rw [Encoding.decodeInState_expectPayloadOrChecksumTok hst, hrows]
    simp only [textRows, List.take, firstOf_cons, firstOf_nil, decide_eq_true_eq, beq_iff_eq]
    split_ifs <;> simp_all
  | expectChecksumHex1 =>
    have hrows : rowsInState .expectChecksumHex1 = (textRows.drop 4).take 2 := rfl
    simp [Encoding.decodeInState_expectChecksumHex1 hst, hrows, textRows, apply_ite some]
  | expectChecksumHex2 =>
    have hrows : rowsInState .expectChecksumHex2 = (textRows.drop 6).take 2 := rfl
    simp [Encoding.decodeInState_expectChecksumHex2 hst, hrows, textRows, apply_ite some]
  | expectEnd1 =>
    have hrows : rowsInState .expectEnd1 = (textRows.drop 8).take 2 := rfl
    simp [Encoding.decodeInState_expectEnd1 hst, hrows, textRows, apply_ite some]
  | expectEnd2 =>
    have hrows : rowsInState .expectEnd2 = textRows.drop 10 := rfl
    rw [Encoding.decodeInState_expectEnd2 hst, hrows]
    simp only [textRows, List.drop, firstOf_cons, firstOf_nil, bne_iff_ne, Bool.and_eq_true, beq_iff_eq]
    split_ifs <;> simp_all
  | expectSync2 =>
    have hrows : rowsInState .expectSync2 = binaryRows.take 2 := rfl
    simp [Encoding.decodeInState_expectSync2 hst, hrows, binaryRows, apply_ite some]
  | expectLength =>
    have hrows : rowsInState .expectLength = (binaryRows.drop 2).take 4 := rfl
    have hsecond : s.session.wrCnt ≠ 0 → s.session.wrCnt = 1 := by have := hlength hst; omega
    have hpos : 1 ≤ (cellByte s 0).toNat + 256 * b.toNat ↔ ¬ (cellByte s 0 = 0 ∧ b = 0) := by
      simp only [BitVec.toNat_eq, BitVec.ofNat_eq_ofNat, BitVec.toNat_ofNat]
      omega
    rw [Encoding.decodeInState_expectLength hst, hrows]
    simp only [binaryRows, List.drop, List.take, firstOf_cons, firstOf_nil, Bool.and_eq_true,
      decide_eq_true_eq, beq_iff_eq, Encoding.decodedLength_toNat, Encoding.decodedLength_eq_zero_iff,
      hpos]
    split_ifs <;> simp_all
  | expectPayload =>
    have hrows : rowsInState .expectPayload = (binaryRows.drop 6).take 3 := rfl
    have hroom : s.session.wrCnt ≠ s.cfg.C → s.session.wrCnt < s.cfg.C := hcursor.lt_of_ne
    rw [Encoding.decodeInState_expectPayload hst, hrows]
    simp only [binaryRows, List.drop, List.take, firstOf_cons, firstOf_nil, Bool.and_eq_true,
      decide_eq_true_eq, beq_iff_eq, bne_iff_ne]
    split_ifs <;> simp_all
  | expectCheckA =>
    have hrows : rowsInState .expectCheckA = (binaryRows.drop 9).take 2 := rfl
    simp [Encoding.decodeInState_expectCheckA hst, hrows, binaryRows, apply_ite some]
  | expectCheckB =>
    have hrows : rowsInState .expectCheckB = binaryRows.drop 11 := rfl
    simp [Encoding.decodeInState_expectCheckB hst, hrows, binaryRows, apply_ite some]

/-! ## Step 1 read from the table -/

/-- Where the start-token test is enabled the rows of a state are the two start rows and those of step 2,
elsewhere those of step 2 alone. -/
theorem rowsAt_eq (f : FsmState) :
    rowsAt f = (if f.inBinaryTrack = true then [] else startRows.take 2) ++ rowsInState f := by
  cases f <;> rfl

/-- I-3 says where the start-token test is enabled. -/
theorem startEnabled_eq {s : State} (htext : s.session.state.inTextTrack = true → s.session.proto = .text)
    (hbin : s.session.state.inBinaryTrack = true → s.session.proto = .binary) :
    startEnabled s = !s.session.state.inBinaryTrack := by
  rw [Bool.eq_iff_iff, (Encoding.startTestEnabledWhere s).2 htext hbin]
  cases s.session.state <;> decide

/-- Settles O22: in each state the table lists its rows in priority order, so its decoder takes the first
that holds; those rows are the tests of R79 in R79's order. -/
theorem opcodeTableDecodesAlike : Obligations.OpcodeTableDecodesAlike := by
  unfold Obligations.OpcodeTableDecodesAlike
  intro s b hcursor htext hbin hlength
  have hstep2 := firstOf_rowsInState b hcursor hlength
  rw [tableDecode_eq_firstOf, rowsAt_eq, decode, decodeFeed, startEnabled_eq htext hbin]
  cases htrack : s.session.state.inBinaryTrack with
  | true => simpa using hstep2
  | false =>
    simp only [startRows, List.take, Bool.false_eq_true, if_false, List.cons_append, List.nil_append,
      firstOf_cons, hstep2, isTStart, isBSync1, Bool.not_false, Bool.true_and]
    split_ifs <;> simp_all

/-! ## Hex digits -/

theorem isHex_iff (b : Byte) :
    isHex b = true ↔ (0x30 ≤ b.toNat ∧ b.toNat ≤ 0x39) ∨ (0x41 ≤ b.toNat ∧ b.toNat ≤ 0x46) := by
  simp [isHex, BitVec.le_def]

theorem hexVal_toNat_of_decimal (b : Byte) (hlo : 0x30 ≤ b.toNat) (hhi : b.toNat ≤ 0x39) :
    (hexVal b).toNat = b.toNat - 0x30 := by
  have hle : b ≤ 0x39#8 := hhi
  rw [hexVal, if_pos hle, BitVec.toNat_setWidth]
  bv_omega

theorem hexVal_toNat_of_letter (b : Byte) (hlo : 0x41 ≤ b.toNat) (hhi : b.toNat ≤ 0x46) :
    (hexVal b).toNat = b.toNat - 0x41 + 10 := by
  have hgt : ¬ b ≤ 0x39#8 := fun hle => by
    have : b.toNat ≤ 0x39 := hle
    omega
  rw [hexVal, if_neg hgt, BitVec.toNat_setWidth]
  bv_omega

/-- Settles O24: the digit codes by `isHex_iff`, the two directions of the reading by the operand
lemmas of decode. -/
theorem hexDigitsReadBack : Obligations.HexDigitsReadBack := by
  unfold Obligations.HexDigitsReadBack
  exact ⟨fun h => ⟨Encoding.isHex_hexDigit h, Encoding.hexVal_hexDigit h⟩, fun b =>
    ⟨isHex_iff b, Encoding.hexDigit_hexVal, hexVal_toNat_of_decimal b, hexVal_toNat_of_letter b⟩⟩

/-! ## Words under the reference tokens -/

section Reference

variable {s : State} (hcfg : s.cfg = Config.reference) {b : Byte}

include hcfg

/-- Under the reference tokens step 1 takes no byte but `$` and 0xB5. -/
theorem startTaken_reference (htext : b ≠ 0x24) (hbin : b ≠ 0xB5) :
    startTaken s (.feed b) = false :=
  (Encoding.startTaken_eq_false_iff s b).mpr fun _ => by rw [hcfg]; exact ⟨htext, hbin⟩

theorem capacity_reference : s.cfg.C = 128 := by rw [hcfg]; rfl

theorem decode_dollar (h : startEnabled s = true) : decode s (.feed 0x24) = .startText :=
  (StartDetect.decode_eq_startText_iff s _).mpr ⟨h, by rw [hcfg]; rfl⟩

theorem decode_sync1 (h : startEnabled s = true) : decode s (.feed 0xB5) = .startBin :=
  (StartDetect.decode_eq_startBin_iff s _).mpr ⟨h, by rw [hcfg]; decide, by rw [hcfg]; rfl⟩

theorem decode_skipped (h : s.session.state = .waitForStart) (htext : b ≠ 0x24) (hbin : b ≠ 0xB5) :
    decode s (.feed b) = .idleSkip b :=
  (StartDetect.decode_eq_idleSkip_iff s b).mpr ⟨h, by rw [hcfg]; exact ⟨htext, hbin⟩⟩

theorem decode_star (h : s.session.state = .expectPayloadOrChecksumTok) :
    decode s (.feed 0x2A) = .txtCstok :=
  (TextTrack.decode_eq_txtCstok_iff s _).mpr
    ⟨h, startTaken_reference hcfg (by decide) (by decide), by rw [hcfg]; decide, by rw [hcfg]; rfl⟩

theorem decode_carriageReturn (h : s.session.state = .expectEnd1) :
    decode s (.feed 0x0D) = .txtEnd1 :=
  (TextTrack.decode_eq_txtEnd1_iff s _).mpr
    ⟨h, startTaken_reference hcfg (by decide) (by decide), by rw [hcfg]; rfl⟩

theorem decode_lineFeed (h : s.session.state = .expectEnd2) (hxor : s.session.xorAcc = 0) :
    decode s (.feed 0x0A) = .txtEnd2Ok :=
  (OperationRules.decode_eq_txtEnd2Ok_iff s _).mpr
    ⟨h, startTaken_reference hcfg (by decide) (by decide), by rw [hcfg]; rfl, hxor⟩

theorem decode_sync2 (h : s.session.state = .expectSync2) :
    decode s (.feed 0x62) = .binSync2 :=
  (OperationRules.decode_eq_binSync2_iff s _).mpr
    ⟨h, startTaken_reference hcfg (by decide) (by decide), by rw [hcfg]; rfl⟩

/-- A zero high length byte after a zero low one. -/
theorem decode_zeroLength (h : s.session.state = .expectLength) (hsecond : s.session.wrCnt = 1)
    (hcell : readCell s.session.buf 0 = some 0x00) : decode s (.feed 0x00) = .binLen1Zero :=
  (OperationRules.decode_eq_binLen1Zero_iff s _).mpr
    ⟨h, startTaken_reference hcfg (by decide) (by decide), by rw [hsecond]; decide,
      Laws.cellByte_of_readCell hcell, rfl⟩

end Reference

/-- Settles O23: each word through the rule of its operation. -/
theorem wordsDecodeAsWritten : Obligations.WordsDecodeAsWritten := by
  unfold Obligations.WordsDecodeAsWritten
  intro s hcfg
  refine ⟨fun hst => ?idle, fun hst _ hcnt => ?payload, fun hst _ => ?digit,
    fun hst _ => decode_carriageReturn hcfg hst, fun hst hproto => ?sync2,
    fun hst _ hsecond hcell => ?length⟩
  case idle =>
    have hen : startEnabled s = true := (Encoding.startEnabled_iff s).mpr (.inl hst)
    exact ⟨decode_dollar hcfg hen, decode_sync1 hcfg hen,
      decode_skipped hcfg hst (by decide) (by decide)⟩
  case payload =>
    refine ⟨decode_star hcfg hst, (TextTrack.decode_eq_txtAppend_iff s _).mpr ?_,
      (TextTrack.decode_eq_txtNoise_iff s _).mpr ?_⟩
    · refine ⟨hst, startTaken_reference hcfg (by decide) (by decide), ?_, ?_, ?_⟩
      · rw [hcfg]; decide
      · rw [hcfg]; decide
      · rw [hcnt, capacity_reference hcfg]; decide
    · exact ⟨hst, startTaken_reference hcfg (by decide) (by decide), by rw [hcfg]; decide⟩
  case digit =>
    exact ⟨(TextTrack.decode_eq_txtHex1_iff s _ _).mpr
        ⟨hst, startTaken_reference hcfg (by decide) (by decide), by decide, by decide⟩,
      (TextTrack.decode_eq_txtHex1Bad_iff s _).mpr
        ⟨hst, startTaken_reference hcfg (by decide) (by decide), by decide⟩⟩
  case sync2 =>
    have hoff : startTaken s (.feed 0x24) = false := by
      simp [startTaken, startEnabled, hst, hproto]
    exact ⟨decode_sync2 hcfg hst, (OperationRules.decode_eq_binSync2Bad_iff s _).mpr
      ⟨hst, hoff, by rw [hcfg]; decide⟩⟩
  case length =>
    refine ⟨decode_zeroLength hcfg hst hsecond hcell,
      (BinaryTrack.decode_eq_binLen1Ovf_iff s _).mpr
        ⟨hst, startTaken_reference hcfg (by decide) (by decide), by rw [hsecond]; decide, ?_⟩⟩
    rw [BinaryTrack.decodedLength_toNat_of_cell hcell, capacity_reference hcfg]
    decide

/-! ## A table word on its own -/

/-- What a table word performs in the context that the model reads it in (log entry 8). -/
def wordOperation (b : Byte) : Instr :=
  if b = 0x24 then .startText
  else if b = 0xB5 then .startBin
  else if b = 0x2A then .txtCstok
  else if b = 0x0D then .txtEnd1
  else if b = 0x0A then .txtEnd2Ok
  else if b = 0x62 then .binSync2
  else if b = 0x00 then .binLen1Zero
  else .idleSkip b

/-- The context of a table word under the reference tokens. -/
theorem tableContext_reference {s : State} (hcfg : s.cfg = Config.reference) (b : Byte) :
    tableContext b s =
      if b = 0x24 ∨ b = 0xB5 then { s with session := { s.session with state := .waitForStart } }
      else if b = 0x2A then
        { s with session := { s.session with state := .expectPayloadOrChecksumTok, proto := .text } }
      else if b = 0x0D then
        { s with session := { s.session with state := .expectEnd1, proto := .text } }
      else if b = 0x0A then
        { s with session := { s.session with state := .expectEnd2, proto := .text, xorAcc := 0 } }
      else if b = 0x62 then
        { s with session := { s.session with state := .expectSync2, proto := .binary } }
      else if b = 0x00 then
        { s with session := { s.session with
            state := .expectLength, proto := .binary, wrCnt := 1
            buf := writeCell s.session.buf 0 0x00 } }
      else { s with session := { s.session with state := .waitForStart } } := by
  have htokens : s.cfg.textStart = 0x24 ∧ s.cfg.binSync1 = 0xB5 ∧ s.cfg.textCstok = 0x2A
      ∧ s.cfg.textEnd1 = 0x0D ∧ s.cfg.textEnd2 = 0x0A ∧ s.cfg.binSync2 = 0x62 := by
    rw [hcfg]; exact ⟨rfl, rfl, rfl, rfl, rfl, rfl⟩
  obtain ⟨htext, hbin, hcstok, hend1, hend2, hsync2⟩ := htokens
  simp only [tableContext, isTStart, isBSync1, isCstok, isEnd1, isEnd2, isBSync2, htext, hbin, hcstok,
    hend1, hend2, hsync2, Bool.or_eq_true, beq_iff_eq]

/-- The context of a table word fixes every register its row reads, so the state before does not matter. -/
theorem decode_tableContext {s : State} (hcfg : s.cfg = Config.reference) (b : Byte) :
    decode (tableContext b s) (.feed b) = wordOperation b := by
  have hidle : ∀ u : State, u.session.state = .waitForStart → startEnabled u = true :=
    fun u h => (Encoding.startEnabled_iff u).mpr (.inl h)
  rw [tableContext_reference hcfg, wordOperation]
  by_cases htext : b = 0x24
  · subst htext; exact decode_dollar hcfg (hidle _ rfl)
  by_cases hbin : b = 0xB5
  · subst hbin; exact decode_sync1 hcfg (hidle _ rfl)
  rw [if_neg (not_or.mpr ⟨htext, hbin⟩), if_neg htext, if_neg hbin]
  split_ifs with hcstok hend1 hend2 hsync2 hzero
  · subst hcstok; exact decode_star hcfg rfl
  · subst hend1; exact decode_carriageReturn hcfg rfl
  · subst hend2; exact decode_lineFeed hcfg rfl rfl
  · subst hsync2; exact decode_sync2 hcfg rfl
  · subst hzero; exact decode_zeroLength hcfg rfl rfl (Laws.readCell_writeCell_self _ _ _)
  · exact decode_skipped (s := { s with session := { s.session with state := .waitForStart } }) hcfg rfl
      htext hbin

/-- A table word is the byte of its eight low bits, or no event at all. -/
theorem tableEvent_eq_some {nbits w : Nat} {e : Event} (h : tableEvent nbits w = some e) :
    e = .feed (BitVec.ofNat 8 w) := by
  rw [tableEvent, Option.ite_none_left_eq_some] at h
  exact (Option.some.inj h.2).symm

/-- Settles O58: `withFetchWord` puts the word in front of the input in the context that
`decodeTableWord` reads it in, and that context decides the operation from every state. -/
theorem fetchWordRunsTableWord : Obligations.FetchWordRunsTableWord := by
  unfold Obligations.FetchWordRunsTableWord
  intro s nbits w i hcfg hword
  obtain ⟨e, he, rfl⟩ := Option.map_eq_some_iff.mp hword
  have hplace : s.withFetchWord nbits w =
      { tableContext (BitVec.ofNat 8 w) s with input := e :: s.input } := by
    rw [State.withFetchWord, placeWord, he]
  obtain rfl := tableEvent_eq_some he
  rw [decode_tableContext rfl, ← decode_tableContext hcfg, hplace]
  rw [Meanings.step_of_cons (rest := s.input) rfl]
  rfl

end Sys2Proof.TableDecoder

/-! SUPPORT. What every step and every operation changes and leaves alone (spec 10_state.md R22, R34), the
append at its bounds (20_memory.md R53), the silent abort (60_exceptions.md R200, R208), and the effects
(43_effects_and_events.md R170 to R172). -/

namespace Sys2Proof.StepLaws

open Sys2Proof.Machine Sys2Proof.Laws Sys2Proof.Meanings Sys2Proof.Invariants

/-! ## The step -/

/-- Settles O26: `step_of_cons`, and the row of the decoded operation. -/
theorem stepPerformsSelectedOperation : Obligations.StepPerformsSelectedOperation := by
  unfold Obligations.StepPerformsSelectedOperation
  exact fun s e rest hin => ⟨step_of_cons hin, (Encoding.rowOf_decode s e).wellFormed⟩

/-- Settles O27: without an event a step is `holdIdle`. -/
theorem stepHoldsWithoutEvents : Obligations.StepHoldsWithoutEvents := by
  unfold Obligations.StepHoldsWithoutEvents
  exact fun s hin => step_of_nil hin

/-- Settles O28: every next state is the state without the event, with a Session and effects committed. -/
theorem stepKeepsConfiguration : Obligations.StepKeepsConfiguration := by
  unfold Obligations.StepKeepsConfiguration
  intro s t ht
  obtain ⟨hin, rfl⟩ | ⟨e, rest, hin, hexec⟩ := step_next ht
  · simp [hin]
  · rw [exec_next hexec]
    simp [hin]

/-- With I-2 no append finds its cell missing. -/
theorem appending_total {s : State} (b : Byte) (k : Session → Session)
    (h : s.session.wrCnt ≤ s.cfg.C) : ∃ t, appending b k s = .next t := by
  obtain hlt | heq := h.lt_or_eq
  · exact ⟨_, appending_below b k hlt⟩
  · exact ⟨_, appending_full b k heq⟩

/-- From a state with the invariants every selected operation answers a next state. -/
theorem exec_total {s : State} {i : Instr} (h : Inv s) (hsel : selects s i = true) :
    ∃ t, exec i s = .next t := by
  cases i with
  | txtAppend | binLen0 | binLen1Ovf | binLen1Zero | binLen1 | binPayLast | binPay =>
    exact appending_total _ _ h.cursor
  | txtEnd2Ok =>
    exact ⟨_, delivering_inside _ _ _ (.inr ((Nat.zero_add _).trans_le h.cursor))⟩
  | binCkbOk b =>
    obtain ⟨hst, -⟩ := row_of_selects hsel rfl
    have hcnt := h.atCheck (.inr hst)
    exact ⟨_, delivering_inside _ _ _ (.inr (by have := h.cursor; omega))⟩
  | _ => exact ⟨_, rfl⟩

/-- Settles O29: the event selects a row, and under the invariants every selected operation completes. -/
theorem stepNeverStops : Obligations.StepNeverStops := by
  unfold Obligations.StepNeverStops
  intro s h
  cases hin : s.input with
  | nil => exact ⟨_, step_of_nil hin⟩
  | cons e rest =>
    rw [step_of_cons hin]
    exact exec_total (inv_withInput h) (selects_decode s e rest)

/-! ## The successor relation -/

/-- The start operations lead on from `WaitForStart` and from every state of the text track. -/
theorem start_successors {f : FsmState} (h : f.inBinaryTrack = false) :
    .expectPayloadOrChecksumTok ∈ f.successors ∧ .expectSync2 ∈ f.successors := by
  revert h; cases f <;> decide

/-- The state an operation leads to from `f` when its append, if it has one, finds room. -/
def targetOf (f : FsmState) : Instr → FsmState
  | .startText => .expectPayloadOrChecksumTok
  | .startBin => .expectSync2
  | .txtCstok => .expectChecksumHex1
  | .txtHex1 _ => .expectChecksumHex2
  | .txtHex2 _ => .expectEnd1
  | .txtEnd1 => .expectEnd2
  | .binSync2 => .expectLength
  | .binLen1 _ => .expectPayload
  | .binLen1Zero | .binPayLast _ => .expectCheckA
  | .binCka _ => .expectCheckB
  | .idleSkip _ | .txtAppend _ | .binLen0 _ | .binPay _ => f
  | _ => .waitForStart

/-- The only other state an operation can lead to is `WaitForStart`, where its append finds none. -/
theorem exec_state {s t : State} {i : Instr} (h : exec i s = .next t) :
    t.session.state = targetOf s.session.state i
      ∨ ((writeSet i).buf = true ∧ t.session.state = .waitForStart) := by
  cases i with
  | txtAppend | binLen0 | binLen1Ovf | binLen1Zero | binLen1 | binPayLast | binPay =>
    obtain ⟨-, rfl⟩ | ⟨-, rfl⟩ := appending_next h
    · exact .inl rfl
    · exact .inr ⟨rfl, rfl⟩
  | txtEnd2Ok | binCkbOk => obtain ⟨-, rfl⟩ := delivering_next h; exact .inl rfl
  | _ => obtain rfl := Host.Outcome.next.inj h; exact .inl rfl

/-- Every operation of step 2 leads to a successor of the state its row stands in (R22). -/
theorem targetOf_mem_successors {i : Instr} {c : FsmState} (hc : contextOf i = some c) :
    targetOf c i ∈ c.successors ∧ ((writeSet i).buf = true → .waitForStart ∈ c.successors) := by
  cases i with
  | startText | startBin | abort | reset => exact absurd hc nofun
  | _ => cases hc; simp [targetOf, FsmState.successors, writeSet, WriteSet.stateOnly]

/-- A byte performs an operation of the state's own rows, or starts a frame where the start-token test is
enabled. -/
theorem decode_feed_cases (s : State) (b : Byte) :
    contextOf (decode s (.feed b)) = some s.session.state
    ∨ (startEnabled s = true
      ∧ (decode s (.feed b) = .startText ∨ decode s (.feed b) = .startBin)) := by
  obtain ⟨-, hsel, hspell⟩ := Encoding.rowOf_decode s (.feed b)
  generalize decode s (.feed b) = i at hsel hspell
  cases hc : contextOf i with
  | some c =>
    obtain ⟨rfl, -⟩ := row_of_selects hsel hc
    exact .inl rfl
  | none =>
    have hstart : i = .startText ∨ i = .startBin := by
      cases i <;> simp_all [contextOf, encode]
    refine .inr ⟨?_, hstart⟩
    obtain rfl | rfl := hstart <;> exact hsel

/-- Settles O32: a byte that starts a frame does so in `WaitForStart` or in the text track, which I-3 says
are the states with the test enabled; any other byte performs an operation of the state's own rows. -/
theorem successorsOfEachState : Obligations.SuccessorsOfEachState := by
  unfold Obligations.SuccessorsOfEachState
  intro s t e rest hin ht htext hbin
  rw [step_of_cons hin] at ht
  cases e with
  | abort | reset => obtain rfl := Host.Outcome.next.inj ht; rfl
  | feed b =>
    have hstate := exec_state ht
    obtain hc | ⟨hen, hi⟩ := decode_feed_cases s b
    · obtain ⟨hown, hidle⟩ := targetOf_mem_successors hc
      obtain h | ⟨hbuf, h⟩ := hstate
      · exact h ▸ hown
      · exact h ▸ hidle hbuf
    · have htrack : s.session.state.inBinaryTrack = false := by
        simpa [TableDecoder.startEnabled_eq htext hbin] using hen
      obtain ⟨htextStart, hbinStart⟩ := start_successors htrack
      obtain hi | hi := hi <;> rw [hi] at hstate
      · exact hstate.elim (· ▸ htextStart) fun h => absurd h.1 Bool.false_ne_true
      · exact hstate.elim (· ▸ hbinStart) fun h => absurd h.1 Bool.false_ne_true

/-! ## The write sets -/

/-- Every register that a row does not mark is the same in both Sessions. -/
structure OnlyWrites (w : WriteSet) (old new : Session) : Prop where
  state : w.state = false → new.state = old.state
  proto : w.proto = false → new.proto = old.proto
  xorAcc : w.xorAcc = false → new.xorAcc = old.xorAcc
  acc1 : w.acc1 = false → new.acc1 = old.acc1
  acc2 : w.acc2 = false → new.acc2 = old.acc2
  expLen : w.expLen = false → new.expLen = old.expLen
  wrCnt : w.wrCnt = false → new.wrCnt = old.wrCnt
  buf : w.buf = false → new.buf = old.buf

theorem onlyWrites_goto (f : FsmState) (ses : Session) : OnlyWrites .stateOnly ses (goto f ses) :=
  ⟨nofun, fun _ => rfl, fun _ => rfl, fun _ => rfl, fun _ => rfl, fun _ => rfl, fun _ => rfl,
    fun _ => rfl⟩

/-- An operation writes what its row marks, where its append finds room (R34). -/
theorem exec_onlyWrites {s t : State} {i : Instr} (h : exec i s = .next t)
    (hroom : (writeSet i).buf = true → s.session.wrCnt < s.cfg.C) :
    OnlyWrites (writeSet i) s.session t.session := by
  cases i with
  | txtAppend | binLen0 | binLen1Ovf | binLen1Zero | binLen1 | binPayLast | binPay =>
    obtain ⟨-, rfl⟩ | ⟨hfull, -⟩ := appending_next h
    · constructor <;> simp [writeSet]
    · exact absurd hfull (hroom rfl).ne
  | startText | startBin | idleSkip | txtHex1 | txtHex2 | reset =>
    obtain rfl := Host.Outcome.next.inj h
    constructor <;> simp [writeSet]
  | _ =>
    obtain ⟨f, hses⟩ := exec_of_stateOnly rfl h
    exact hses ▸ onlyWrites_goto f s.session

/-- Settles O33: the registers by `exec_onlyWrites`, the cells by what an append does to the buffer. -/
theorem operationsWriteOnlyTheirRow : Obligations.OperationsWriteOnlyTheirRow := by
  unfold Obligations.OperationsWriteOnlyTheirRow
  intro s t i h hroom
  obtain ⟨hstate, hproto, hxor, hacc1, hacc2, hlen, hcnt, hbuf⟩ := exec_onlyWrites h hroom
  have hframe := exec_next h
  refine ⟨hstate, hproto, hxor, hacc1, hacc2, hlen, hcnt, fun a ha => ?cells, ?_, ?_, ?_⟩
  case cells =>
    cases hw : (writeSet i).buf with
    | false => rw [hbuf hw]
    | true =>
      obtain ⟨b, k, -, hexec, hk⟩ := exec_of_appends hw s
      rw [hexec, appending_below b k (hroom hw)] at h
      rw [armed_next h, commit_session, (hk _).1, appended_buf, readCell_writeCell, if_neg (ha hw)]
  all_goals rw [hframe]; rfl

/-! ## Append at its bounds -/

/-- Settles O34: every operation that appends is `appending` of its own byte. -/
theorem appendChecksBounds : Obligations.AppendChecksBounds := by
  unfold Obligations.AppendChecksBounds
  intro s i b hw hspell
  obtain ⟨b', k, hspell', hexec, hk⟩ := exec_of_appends hw s
  obtain rfl : b' = b := Event.feed.inj (hspell'.symm.trans hspell)
  refine ⟨fun hlt => ⟨_, hexec.trans (appending_below b' k hlt), (hk _).2, fun c => ?_⟩, fun hfull => ?_⟩
  · rw [commit_session, (hk _).1, appended_buf, readCell_writeCell]
  · rw [hexec, appending_full b' k hfull, TextTrack.aborted_eq]

theorem appending_above {s : State} (b : Byte) (k : Session → Session)
    (h : s.cfg.C < s.session.wrCnt) :
    appending b k s = .fault (.noSuchCellWrite s.session.wrCnt) := by
  simp [appending, append, h.ne', h.not_gt]

theorem delivering_outside {s : State} (frame : Nat → List Byte → Effect) {base n : Nat}
    (hn : n ≠ 0) (h : s.cfg.C < base + n) :
    delivering frame base n s = .fault (.noSuchCellRead (base + n - 1)) := by
  have hnone : readRange s base n = none := by
    refine Option.eq_none_iff_forall_ne_some.mpr fun bytes hsome => ?_
    obtain ⟨hin, -⟩ := readRange_some hsome
    omega
  rw [delivering, hnone]

/-- Settles O35: an append above the capacity and a range that leaves the buffer are the two faults. -/
theorem accessOutsideBufferFaults : Obligations.AccessOutsideBufferFaults := by
  unfold Obligations.AccessOutsideBufferFaults
  refine fun s => ⟨fun i hw habove => ?append, fun habove => ?text, fun b hne habove => ?binary⟩
  case append =>
    obtain ⟨b, k, -, hexec, -⟩ := exec_of_appends hw s
    rw [hexec, appending_above b k habove]
  case text =>
    rw [exec_txtEnd2Ok, delivering_outside _ (by omega) (by omega), Nat.zero_add]
  case binary =>
    have hn : s.session.expLen.toNat ≠ 0 := fun h => hne (BitVec.eq_of_toNat_eq h)
    rw [exec_binCkbOk, delivering_outside _ hn (by omega)]
    congr 2
    omega

/-- In `ExpectLength` every byte that step 1 leaves is appended. -/
theorem decodeInState_expectLength_appends {s : State} (hst : s.session.state = .expectLength)
    (b : Byte) : (writeSet (decodeInState s b)).buf = true := by
  rw [Encoding.decodeInState_expectLength hst]
  split_ifs <;> rfl

/-- Settles O36: the length byte is one to append, and the buffer is full. -/
theorem tinyBuffersAbortInLength : Obligations.TinyBuffersAbortInLength := by
  unfold Obligations.TinyBuffersAbortInLength
  intro s b rest hin _ hfull hst hproto
  have hstart : startTaken s (.feed b) = false := by simp [startTaken, startEnabled, hst, hproto]
  obtain ⟨b', k, -, hexec, -⟩ :=
    exec_of_appends (decodeInState_expectLength_appends hst b) { s with input := rest }
  rw [step_of_cons hin, Encoding.decode_eq_decodeInState hstart, hexec,
    appending_full (s := { s with input := rest }) b' k hfull, TextTrack.aborted_eq]

/-! ## The silent abort -/

/-- An operation with an abort cause ends in `WaitForStart`, BIN.LEN1.OVF after its append or without. -/
theorem exec_abortCause_state {s t : State} {i : Instr} {c : AbortCause}
    (hc : abortCauseOf i = some c) (h : exec i s = .next t) :
    t.session.state = .waitForStart := by
  by_cases hovf : ∃ b, i = .binLen1Ovf b
  · obtain ⟨b, rfl⟩ := hovf
    exact (exec_state h).elim id And.right
  · rw [exec_of_abortCause hc (not_exists.mp hovf) h]
    rfl

/-- A frame effect is the effect of one of the two deliveries. -/
theorem frame_mem_emitted {s : State} {i : Instr} {e : Effect} (he : e ∈ emitted s i)
    (hframe : e.isFrame = true) :
    (i = .txtEnd2Ok ∧ e = .frameText s.session.wrCnt (cellsFrom s 0 s.session.wrCnt))
    ∨ ∃ b, i = .binCkbOk b
        ∧ e = .frameBinary s.session.expLen.toNat (cellsFrom s 2 s.session.expLen.toNat) := by
  have harm : e ≠ arm s := fun h => by simp [h, arm, Effect.isFrame] at hframe
  cases i with
  | txtEnd2Ok => exact .inl ⟨rfl, by simpa [emitted, harm] using he⟩
  | binCkbOk b => exact .inr ⟨b, rfl, by simpa [emitted, harm] using he⟩
  | _ => simp [emitted, harm] at he

/-- The effects of a next state are those of its operation. -/
theorem exec_effects {s t : State} {i : Instr} (h : exec i s = .next t) : t.effects = emitted s i :=
  congrArg State.effects (exec_next h)

theorem exec_cfg {s t : State} {i : Instr} (h : exec i s = .next t) : t.cfg = s.cfg := by
  rw [exec_next h]; rfl

/-- Settles O37: a frame effect would make the operation a delivery, which has no abort cause. -/
theorem abortsAreSilent : Obligations.AbortsAreSilent := by
  unfold Obligations.AbortsAreSilent
  intro s t i c hc h
  refine ⟨exec_abortCause_state hc h, fun e he => ?_, fun hne => exec_of_abortCause hc hne h⟩
  rw [exec_effects h] at he
  by_contra hframe
  obtain ⟨rfl, -⟩ | ⟨b, rfl, -⟩ := frame_mem_emitted he (Bool.eq_true_of_not_eq_false hframe)
  · exact absurd hc nofun
  · exact absurd hc nofun

/-- Settles O38: in `WaitForStart` the start-token test is enabled, under the same tokens. -/
theorem abortsResynchronize : Obligations.AbortsResynchronize := by
  unfold Obligations.AbortsResynchronize
  intro s t i c hc h
  have hen : startEnabled t = true :=
    (Encoding.startEnabled_iff t).mpr (.inl (exec_abortCause_state hc h))
  rw [← exec_cfg h]
  exact ⟨fun b => by simp [startTaken, hen], Encoding.decode_textStart hen,
    Encoding.decode_binSync1 hen⟩

/-! ## Effects -/

/-- Every operation of a byte but IDLE.SKIP requests the timer once. -/
theorem arms_once {s : State} {i : Instr} {b : Byte} (hspell : encode s.cfg i = .feed b)
    (hne : i ≠ .idleSkip b) :
    (emitted s i).countP Effect.isArm = 1 ∧ arm s ∈ emitted s i := by
  cases i with
  | idleSkip b' => exact absurd (congrArg Instr.idleSkip (Event.feed.inj hspell)) hne
  | abort | reset => exact absurd hspell nofun
  | txtEnd2Ok | binCkbOk => simp [emitted, arm, Effect.isArm, Effect.isFrame]
  | _ => exact ⟨rfl, List.mem_singleton_self _⟩

/-- Settles O39: the effects of a step are those of the operation its event selects, which is spelled by
that event. -/
theorem timeoutRequestPerByte : Obligations.TimeoutRequestPerByte := by
  unfold Obligations.TimeoutRequestPerByte
  intro s t ht
  have heff : ∀ e rest, s.input = e :: rest →
      t.effects = emitted { s with input := rest } (decode s e) := fun e rest hin =>
    exec_effects (step_of_cons hin ▸ ht)
  refine ⟨fun b rest hin hne => ?byte, fun b rest hin hskip => ?skip, fun rest hin => ?abort,
    fun rest hin => heff .reset rest hin, fun hin => ?none⟩
  case byte =>
    rw [heff _ rest hin]
    exact arms_once (s := { s with input := rest }) (Encoding.rowOf_decode s (.feed b)).spelled hne
  case skip =>
    rw [heff _ rest hin, hskip]
    rfl
  case abort =>
    refine ⟨heff .abort rest hin, fun hidle => ?_⟩
    obtain rfl := Host.Outcome.next.inj (step_of_cons hin ▸ ht : exec .abort _ = _)
    exact OperationRules.goto_self hidle
  case none =>
    rw [step_of_nil hin] at ht
    exact (Host.Outcome.next.inj ht) ▸ rfl

/-- Settles O40: the frame effects of a next state are those that `emitted` lists. -/
theorem framesComeFromDeliveriesOnly : Obligations.FramesComeFromDeliveriesOnly := by
  unfold Obligations.FramesComeFromDeliveriesOnly
  intro s t i h
  rw [exec_effects h]
  refine ⟨?atMostOne, fun len bytes hmem => ?text, fun len bytes hmem => ?binary⟩
  case atMostOne => cases i <;> simp [emitted, arm, List.countP_cons, Effect.isFrame]
  case text =>
    obtain ⟨rfl, he⟩ | ⟨b, -, he⟩ := frame_mem_emitted hmem rfl
    · obtain ⟨rfl, rfl⟩ := Effect.frameText.inj he
      exact ⟨rfl, rfl, by simp [cellsFrom]⟩
    · exact absurd he nofun
  case binary =>
    obtain ⟨-, he⟩ | ⟨b, rfl, he⟩ := frame_mem_emitted hmem rfl
    · exact absurd he nofun
    · obtain ⟨rfl, rfl⟩ := Effect.frameBinary.inj he
      exact ⟨⟨b, rfl⟩, rfl, rfl⟩

/-- Under the invariants the cells below the count hold what they read as. -/
theorem readCell_of_inv {s : State} (h : Inv s) {a : Nat} (ha : a < s.session.wrCnt) :
    readCell s.session.buf a = some (cellByte s a) := by
  obtain ⟨v, hv⟩ := Option.isSome_iff_exists.mp (h.cells a ha)
  rw [hv, cellByte_of_readCell hv]

/-- Settles O41: a text frame is the cells below the count; a binary one is selected in `ExpectCheckB`,
where its last cell is the one before the count. -/
theorem deliveredBytesWereWritten : Obligations.DeliveredBytesWereWritten := by
  unfold Obligations.DeliveredBytesWereWritten
  intro s t h ht
  obtain ⟨-, rfl⟩ | ⟨e, rest, hin, hexec⟩ := step_next ht
  · exact ⟨nofun, nofun⟩
  · obtain ⟨-, htext, hbin⟩ := framesComeFromDeliveriesOnly _ t _ hexec
    refine ⟨fun len bytes hmem => ?_, fun len bytes hmem => ?_⟩
    · obtain ⟨-, rfl, rfl⟩ := htext len bytes hmem
      refine ⟨by simp, fun j hj => ?_⟩
      rw [readCell_of_inv h hj, List.getElem?_map, List.getElem?_range hj]
      rfl
    · obtain ⟨⟨b, hi⟩, rfl, rfl⟩ := hbin len bytes hmem
      have hsel := selects_decode s e rest
      rw [hi] at hsel
      obtain ⟨hst, -⟩ := row_of_selects hsel rfl
      have hcnt := h.atCheck (.inr hst)
      refine ⟨by simp, fun j hj => ?_⟩
      have hcell : 2 + j < s.session.wrCnt := by rw [hcnt, Nat.add_comm]; exact Nat.add_lt_add_right hj 2
      rw [readCell_of_inv h hcell, List.getElem?_map, List.getElem?_range hj]
      rfl

end Sys2Proof.StepLaws

/-! SUPPORT. The canonical form of the buffer, and the running sums in closed form (spec 30_encoding.md
R74, 42_binary_track.md R140). -/

namespace Sys2Proof.BufferAndSums

open Sys2Proof.Machine Sys2Proof.Laws

/-! ## Canonical buffers -/

theorem readCell_of_all_above {m : Memory} {a : Nat} (h : ∀ c ∈ m, a < c.1) : readCell m a = none := by
  induction m with
  | nil => rfl
  | cons kv rest ih =>
    obtain ⟨hk, hrest⟩ := List.forall_mem_cons.mp h
    rw [readCell, if_neg hk.ne', ih hrest]

theorem readCell_cons_self (k : Nat) (v : Byte) (rest : Memory) :
    readCell ((k, v) :: rest) k = some v := by
  simp [readCell]

/-- The head of a canonical buffer is its least cell: another buffer that reads alike cannot begin later. -/
theorem head_le_of_reads_alike {k j : Nat} {v w : Byte} {m n : Memory}
    (hn : Memory.wf ((j, w) :: n) = true)
    (h : ∀ a, readCell ((k, v) :: m) a = readCell ((j, w) :: n) a) : j ≤ k := by
  by_contra hlt
  obtain ⟨hj, -⟩ := (wf_cons_iff j w n).mp hn
  have habove : ∀ c ∈ (j, w) :: n, k < c.1 :=
    List.forall_mem_cons.mpr ⟨not_le.mp hlt, fun c hc => (not_le.mp hlt).trans (hj c hc)⟩
  have hk := h k
  rw [readCell_cons_self, readCell_of_all_above habove] at hk
  exact absurd hk (Option.some_ne_none v)

/-- Settles O42: two canonical buffers that read alike begin with the same cell, and so do their rests. -/
theorem canonicalBuffersAreEqual : Obligations.CanonicalBuffersAreEqual := by
  unfold Obligations.CanonicalBuffersAreEqual
  intro m
  induction m with
  | nil =>
    intro n _ _ h
    cases n with
    | nil => rfl
    | cons jw n => exact absurd ((h jw.1).trans (readCell_cons_self jw.1 jw.2 n)) nofun
  | cons kv m ih =>
    intro n hm hn h
    obtain ⟨k, v⟩ := kv
    cases n with
    | nil => exact absurd ((h k).symm.trans (readCell_cons_self k v m)) nofun
    | cons jw n =>
      obtain ⟨j, w⟩ := jw
      obtain rfl : k = j := Nat.le_antisymm (head_le_of_reads_alike hm fun a => (h a).symm)
        (head_le_of_reads_alike hn h)
      have hv := h k
      rw [readCell_cons_self, readCell_cons_self] at hv
      obtain rfl := Option.some.inj hv
      obtain ⟨hkm, hm⟩ := (wf_cons_iff k v m).mp hm
      obtain ⟨hkn, hn⟩ := (wf_cons_iff k v n).mp hn
      have hrest : ∀ a, readCell m a = readCell n a := fun a => by
        by_cases ha : k = a
        · subst ha
          rw [readCell_of_all_above hkm, readCell_of_all_above hkn]
        · simpa [readCell, ha] using h a
      rw [ih n hm hn hrest]

/-! ## The running sums -/

/-- From any two sums: the first gains each byte once; the second gains the first one's old value once for
each byte, and each byte as often as there are bytes from it on. -/
theorem foldl_runningSum (d : List Byte) (x y : Byte) :
    d.foldl runningSum (x, y) =
      (x + BitVec.ofNat 8 (d.map BitVec.toNat).sum,
        y + BitVec.ofNat 8 d.length * x + BitVec.ofNat 8 (weightedSum d)) := by
  induction d generalizing x y with
  | nil => simp [weightedSum]
  | cons b d ih =>
    have hone : BitVec.ofNat 8 1 = 1 := rfl
    rw [List.foldl_cons, runningSum, ih]
    simp only [hone, List.map_cons, List.sum_cons, List.length_cons, weightedSum,
      BitVec.ofNat_add, BitVec.ofNat_mul, BitVec.ofNat_toNat, BitVec.setWidth_eq, Prod.mk.injEq]
    constructor
    · ring
    · ring

/-- Settles O43: the closed form from the sums zero. -/
theorem runningSumsClosedForm : Obligations.RunningSumsClosedForm := by
  unfold Obligations.RunningSumsClosedForm
  intro d
  rw [runningSums, foldl_runningSum]
  simp

end Sys2Proof.BufferAndSums

/-! SUPPORT. Runs over a whole frame (spec 30_encoding.md R71, R72, 41_text_track.md R127, R128,
42_binary_track.md R155, R156): what holds before each part of a frame, and the step or steps that carry it
to the next part. -/

namespace Sys2Proof.FrameRuns

open Sys2Proof.Machine Sys2Proof.Laws Sys2Proof.Meanings Sys2Proof.Invariants

/-! ## Runs -/

/-- Runs compose. -/
theorem trace_add {k : Nat} {s t : State} {es : List (List Effect)} (h : trace k s = some (t, es))
    (m : Nat) : trace (k + m) s = (trace m t).map fun r => (r.1, es ++ r.2) := by
  induction k generalizing s es with
  | zero =>
    obtain ⟨rfl, rfl⟩ := Prod.mk.inj (Option.some.inj h)
    simp
  | succ k ih =>
    rw [Nat.succ_add]
    rw [trace] at h ⊢
    cases hstep : step s with
    | next u =>
      rw [hstep] at h
      obtain ⟨⟨v, fs⟩, hv, hvt⟩ := Option.map_eq_some_iff.mp h
      obtain ⟨rfl, rfl⟩ := Prod.mk.inj hvt
      simp [ih hv, Function.comp_def]
    | fault r => simp [hstep] at h
    | refused r => simp [hstep] at h

theorem trace_one {s t : State} (h : step s = .next t) : trace 1 s = some (t, [t.effects]) := by
  simp [trace, h]

/-- `k` steps from `s` to `t`, each of which emits the timer request and nothing else. -/
def Arms (ms k : Nat) (s t : State) : Prop :=
  trace k s = some (t, List.replicate k [.armTimeout ms])

section Arms

variable {ms k m : Nat} {s t u : State}

theorem Arms.refl (ms : Nat) (s : State) : Arms ms 0 s s := rfl

theorem Arms.trans (h : Arms ms k s t) (h' : Arms ms m t u) : Arms ms (k + m) s u := by
  rw [Arms, trace_add h m, h', Option.map_some, ← List.replicate_add]

theorem Arms.cast (h : Arms ms k s t) (hk : k = m) : Arms ms m s t := hk ▸ h

/-- One more step, whatever it emits. -/
theorem Arms.last (h : Arms ms k s t) (hstep : step t = .next u) :
    trace (k + 1) s = some (u, List.replicate k [.armTimeout ms] ++ [u.effects]) := by
  rw [trace_add h 1, trace_one hstep, Option.map_some]

theorem Arms.one (hstep : step s = .next t) (heff : t.effects = [.armTimeout ms]) : Arms ms 1 s t := by
  rw [Arms, trace_one hstep, heff]
  rfl

end Arms

/-- The step over a byte that selects `i`. -/
theorem step_of_feed {s : State} {b : Byte} {rest : List Event} {i : Instr}
    {o : Host.Outcome State Fault Refusal} (hin : s.input = .feed b :: rest)
    (hdec : decode s (.feed b) = i) (hexec : exec i { s with input := rest } = o) : step s = o := by
  rw [step_of_cons hin, hdec, hexec]

/-! ## What R10 says of the tokens -/

/-- The constraints of R10 one by one. -/
structure TokensApart (cfg : Config) : Prop where
  capacity : 2 ≤ cfg.C ∧ cfg.C ≤ 65535
  starts : cfg.textStart ≠ cfg.binSync1
  cstokStored : cfg.textCstok.toNat ≤ cfg.textMaxChar.toNat
  textStart : isHex cfg.textStart = false ∧ cfg.textStart ≠ cfg.textEnd1
    ∧ cfg.textStart ≠ cfg.textEnd2 ∧ cfg.textStart ≠ cfg.textCstok
  binSync1 : isHex cfg.binSync1 = false ∧ cfg.binSync1 ≠ cfg.textEnd1
    ∧ cfg.binSync1 ≠ cfg.textEnd2 ∧ cfg.binSync1 ≠ cfg.textCstok

theorem tokensApart {cfg : Config} (h : cfg.wellFormed = true) : TokensApart cfg := by
  simp only [Config.wellFormed, Config.freeOfTextTokens, Bool.and_eq_true, decide_eq_true_eq, bne_iff_ne,
    Bool.not_eq_true'] at h
  obtain ⟨⟨⟨⟨hC, hstarts⟩, hcstok⟩, ⟨⟨ht1, ht2⟩, ht3⟩, ht4⟩, ⟨⟨hb1, hb2⟩, hb3⟩, hb4⟩ := h
  exact ⟨hC, hstarts, hcstok, ⟨ht1, ht2, ht3, ht4⟩, ⟨hb1, hb2, hb3, hb4⟩⟩

/-- A byte that is neither start byte is left by step 1 in every state. -/
theorem startTaken_of_ne {s : State} {b : Byte} (htext : b ≠ s.cfg.textStart)
    (hbin : b ≠ s.cfg.binSync1) : startTaken s (.feed b) = false :=
  (Encoding.startTaken_eq_false_iff s b).mpr fun _ => ⟨htext, hbin⟩

/-! ## The text frame -/

/-- In a text frame: `p` has been stored, the accumulator holds `x`, and `inp` is still to come. -/
structure TextAt (cfg : Config) (f : FsmState) (p : List Byte) (x : Byte) (inp : List Event)
    (s : State) : Prop where
  cfg : s.cfg = cfg
  state : s.session.state = f
  proto : s.session.proto = .text
  stored : written s = p
  xorAcc : s.session.xorAcc = x
  input : s.input = inp

theorem TextAt.count {cfg : Config} {f : FsmState} {p : List Byte} {x : Byte} {inp : List Event}
    {s : State} (h : TextAt cfg f p x inp s) : s.session.wrCnt = p.length := by
  rw [← h.stored, written_length]

section Text

variable {cfg : Config} {f : FsmState} {p : List Byte} {x b : Byte} {rest : List Event} {s : State}

theorem text_start (hcfg : s.cfg = cfg) (hen : startEnabled s = true)
    (hin : s.input = .feed cfg.textStart :: rest) :
    ∃ t, Arms cfg.timeoutMs 1 s t ∧ TextAt cfg .expectPayloadOrChecksumTok [] 0x00 rest t := by
  subst hcfg
  have hdec := Encoding.decode_textStart hen
  exact ⟨_, Arms.one (step_of_feed hin hdec (StartDetect.exec_startText _)) rfl,
    ⟨rfl, rfl, rfl, written_eq_nil rfl, rfl, rfl⟩⟩

/-- A byte of the payload row of R71 is stored and folded in. -/
theorem text_append (h : TextAt cfg .expectPayloadOrChecksumTok p x (.feed b :: rest) s)
    (hb : textPayloadByte cfg b = true) (hroom : p.length < cfg.C) :
    ∃ t, Arms cfg.timeoutMs 1 s t
      ∧ TextAt cfg .expectPayloadOrChecksumTok (p ++ [b]) (x ^^^ b) rest t := by
  have hcnt := h.count
  obtain ⟨rfl, hst, hproto, rfl, rfl, hin⟩ := h
  obtain ⟨⟨⟨hmax, htext⟩, hbin⟩, hcstok⟩ :
      ((b ≤ s.cfg.textMaxChar ∧ b ≠ s.cfg.textStart) ∧ b ≠ s.cfg.binSync1) ∧ b ≠ s.cfg.textCstok := by
    simpa [textPayloadByte] using hb
  have hlt : s.session.wrCnt < s.cfg.C := hcnt ▸ hroom
  have hdec : decode s (.feed b) = .txtAppend b :=
    (TextTrack.decode_eq_txtAppend_iff s b).mpr
      ⟨hst, startTaken_of_ne htext hbin, hmax, hcstok, hlt.ne⟩
  have hexec := (TextTrack.exec_txtAppend b { s with input := rest }).trans
    (appending_below b _ hlt)
  exact ⟨_, Arms.one (step_of_feed hin hdec hexec) rfl,
    ⟨rfl, hst, hproto, written_appended rfl rfl rfl, rfl, rfl⟩⟩

/-- A whole payload is stored and folded in, one step for each byte. -/
theorem text_payload {q : List Byte}
    (h : TextAt cfg .expectPayloadOrChecksumTok p x (feeds q ++ rest) s)
    (hq : ∀ b ∈ q, textPayloadByte cfg b = true) (hroom : p.length + q.length ≤ cfg.C) :
    ∃ t, Arms cfg.timeoutMs q.length s t
      ∧ TextAt cfg .expectPayloadOrChecksumTok (p ++ q) (q.foldl (· ^^^ ·) x) rest t := by
  induction q generalizing s p x with
  | nil => exact ⟨s, .refl _ s, by simpa [feeds] using h⟩
  | cons b q ih =>
    obtain ⟨hb, hq⟩ := List.forall_mem_cons.mp hq
    rw [List.length_cons] at hroom
    obtain ⟨t, hst, ht⟩ := text_append h hb (by omega)
    obtain ⟨u, htu, hu⟩ := ih ht hq (by rw [List.length_append, List.length_singleton]; omega)
    refine ⟨u, (hst.trans htu).cast (Nat.add_comm ..), ?_⟩
    simpa using hu

/-- A step that goes on to `g` and leaves buffer and count alone. -/
theorem text_jump {g : FsmState} {y : Byte} {i : Instr} {ses : Session}
    (h : TextAt cfg f p x (.feed b :: rest) s) (hdec : decode s (.feed b) = i)
    (hexec : exec i { s with input := rest } = armed { s with input := rest } ses)
    (hstate : ses.state = g) (hproto : ses.proto = s.session.proto) (hxor : ses.xorAcc = y)
    (hbuf : ses.buf = s.session.buf) (hcnt : ses.wrCnt = s.session.wrCnt) :
    ∃ t, Arms cfg.timeoutMs 1 s t ∧ TextAt cfg g p y rest t := by
  obtain ⟨rfl, -, htext, rfl, rfl, hin⟩ := h
  exact ⟨_, Arms.one (step_of_feed hin hdec hexec) rfl,
    ⟨rfl, hstate, hproto.trans htext, written_congr hbuf hcnt rfl, hxor, rfl⟩⟩

theorem text_cstok (hw : TokensApart cfg)
    (h : TextAt cfg .expectPayloadOrChecksumTok p x (.feed cfg.textCstok :: rest) s) :
    ∃ t, Arms cfg.timeoutMs 1 s t ∧ TextAt cfg .expectChecksumHex1 p x rest t := by
  have hxor := h.xorAcc
  obtain rfl := h.cfg
  obtain ⟨-, -, -, htext⟩ := hw.textStart
  obtain ⟨-, -, -, hbin⟩ := hw.binSync1
  have hdec : decode s (.feed s.cfg.textCstok) = .txtCstok :=
    (TextTrack.decode_eq_txtCstok_iff s _).mpr
      ⟨h.state, startTaken_of_ne htext.symm hbin.symm, hw.cstokStored, rfl⟩
  exact text_jump h hdec (TextTrack.exec_txtCstok _) rfl rfl hxor rfl rfl

/-- A digit is no start byte. -/
theorem startTaken_hexDigit (hw : TokensApart s.cfg) (d : Nibble) :
    startTaken s (.feed (hexDigit d)) = false := by
  obtain ⟨htext, -⟩ := hw.textStart
  obtain ⟨hbin, -⟩ := hw.binSync1
  refine startTaken_of_ne (fun heq => ?_) (fun heq => ?_)
  · rw [← heq, Encoding.isHex_hexDigit] at htext
    exact absurd htext Bool.true_eq_false_eq_False
  · rw [← heq, Encoding.isHex_hexDigit] at hbin
    exact absurd hbin Bool.true_eq_false_eq_False

theorem text_hex1 (hw : TokensApart cfg) {d : Nibble}
    (h : TextAt cfg .expectChecksumHex1 p x (.feed (hexDigit d) :: rest) s) :
    ∃ t, Arms cfg.timeoutMs 1 s t ∧ TextAt cfg .expectChecksumHex2 p (x ^^^ highNibble d) rest t := by
  have hxor := h.xorAcc
  obtain rfl := h.cfg
  have hdec : decode s (.feed (hexDigit d)) = .txtHex1 d :=
    (TextTrack.decode_eq_txtHex1_iff s _ d).mpr
      ⟨h.state, startTaken_hexDigit hw d, by simp, by simp⟩
  exact text_jump h hdec (TextTrack.exec_txtHex1 d _) rfl rfl (congrArg (· ^^^ highNibble d) hxor) rfl rfl

theorem text_hex2 (hw : TokensApart cfg) {d : Nibble}
    (h : TextAt cfg .expectChecksumHex2 p x (.feed (hexDigit d) :: rest) s) :
    ∃ t, Arms cfg.timeoutMs 1 s t ∧ TextAt cfg .expectEnd1 p (x ^^^ lowNibble d) rest t := by
  have hxor := h.xorAcc
  obtain rfl := h.cfg
  have hdec : decode s (.feed (hexDigit d)) = .txtHex2 d :=
    (TextTrack.decode_eq_txtHex2_iff s _ d).mpr
      ⟨h.state, startTaken_hexDigit hw d, by simp, by simp⟩
  exact text_jump h hdec (TextTrack.exec_txtHex2 d _) rfl rfl (congrArg (· ^^^ lowNibble d) hxor) rfl rfl

theorem text_end1 (hw : TokensApart cfg)
    (h : TextAt cfg .expectEnd1 p x (.feed cfg.textEnd1 :: rest) s) :
    ∃ t, Arms cfg.timeoutMs 1 s t ∧ TextAt cfg .expectEnd2 p x rest t := by
  have hxor := h.xorAcc
  obtain rfl := h.cfg
  obtain ⟨-, htext, -, -⟩ := hw.textStart
  obtain ⟨-, hbin, -, -⟩ := hw.binSync1
  have hdec : decode s (.feed s.cfg.textEnd1) = .txtEnd1 :=
    (TextTrack.decode_eq_txtEnd1_iff s _).mpr
      ⟨h.state, startTaken_of_ne htext.symm hbin.symm, rfl⟩
  exact text_jump h hdec (TextTrack.exec_txtEnd1 _) rfl rfl hxor rfl rfl

/-- The cells from `base` on, as far as they are written. -/
theorem cellsFrom_eq_drop {s : State} {base n : Nat} (h : s.session.wrCnt = base + n) :
    cellsFrom s base n = (written s).drop base := by
  rw [written, h, List.range_add, List.map_append, List.drop_left' (by simp)]
  simp [cellsFrom]

/-- The last terminator byte delivers the stored bytes when the accumulator is zero, and drops them
otherwise. -/
theorem text_end2 (hw : TokensApart cfg)
    (h : TextAt cfg .expectEnd2 p x (.feed cfg.textEnd2 :: rest) s) (hfits : p.length ≤ cfg.C) :
    ∃ t, step s = .next t ∧ t.session.state = .waitForStart ∧ t.input = rest
      ∧ (x = 0 → t.effects = [.frameText p.length p, .armTimeout cfg.timeoutMs])
      ∧ (x ≠ 0 → t.effects = [.armTimeout cfg.timeoutMs]) := by
  have hcnt := h.count
  obtain ⟨rfl, hst, hproto, rfl, rfl, hin⟩ := h
  obtain ⟨-, -, htext, -⟩ := hw.textStart
  obtain ⟨-, -, hbin, -⟩ := hw.binSync1
  have hstart : startTaken s (.feed s.cfg.textEnd2) = false := startTaken_of_ne htext.symm hbin.symm
  by_cases hx : s.session.xorAcc = 0
  · have hdec := (OperationRules.decode_eq_txtEnd2Ok_iff s _).mpr ⟨hst, hstart, rfl, hx⟩
    have hexec := (exec_txtEnd2Ok { s with input := rest }).trans
      (delivering_inside _ _ _ (.inr ((Nat.zero_add _).trans_le (hcnt.trans_le hfits))))
    refine ⟨_, step_of_feed hin hdec hexec, rfl, rfl, fun _ => ?_, fun hne => absurd hx hne⟩
    have hbytes : cellsFrom s 0 s.session.wrCnt = written s :=
      cellsFrom_eq_drop (Nat.zero_add _).symm
    rw [← hcnt, ← hbytes]
    rfl
  · have hdec := (TextTrack.decode_eq_txtEnd2Ckfail_iff s _).mpr ⟨hst, hstart, rfl, hx⟩
    exact ⟨_, step_of_feed hin hdec (TextTrack.exec_txtEnd2Ckfail _), rfl, rfl,
      fun h => absurd h hx, fun _ => rfl⟩

end Text

/-- The two digits together are the byte they spell. -/
theorem highNibble_xor_lowNibble (h1 h2 : Nibble) :
    highNibble h1 ^^^ lowNibble h2 = BitVec.ofNat 8 (16 * h1.toNat + h2.toNat) := by
  revert h1 h2
  decide

/-- After both digits the accumulator is zero exactly when they spell what it held. -/
theorem digits_cancel_iff (x : Byte) (h1 h2 : Nibble) :
    x ^^^ highNibble h1 ^^^ lowNibble h2 = 0 ↔ BitVec.ofNat 8 (16 * h1.toNat + h2.toNat) = x := by
  rw [BitVec.xor_assoc, highNibble_xor_lowNibble, eq_comm (b := x)]
  exact BitVec.xor_eq_zero_iff

/-- Settles O45: the parts of the frame one after the other; the accumulator before the last byte is the
payload's XOR with both digits folded in. -/
theorem textChecksumDecidesDelivery : Obligations.TextChecksumDecidesDelivery := by
  unfold Obligations.TextChecksumDecidesDelivery
  intro s p h1 h2 rest hwf hp hidle hin
  have hw := tokensApart hwf
  obtain ⟨hfits, hbytes⟩ : p.length ≤ s.cfg.C ∧ ∀ b ∈ p, textPayloadByte s.cfg b = true := by
    simpa [textPayload] using hp
  have hinput : s.input = .feed s.cfg.textStart :: (feeds p ++ (.feed s.cfg.textCstok
      :: .feed (hexDigit h1) :: .feed (hexDigit h2) :: .feed s.cfg.textEnd1
      :: .feed s.cfg.textEnd2 :: rest)) := by
    simpa [feeds, textFrameWith] using hin
  obtain ⟨s1, r1, a1⟩ := text_start rfl ((Encoding.startEnabled_iff s).mpr hidle) hinput
  obtain ⟨s2, r2, a2⟩ := text_payload a1 hbytes (by simpa using hfits)
  obtain ⟨s3, r3, a3⟩ := text_cstok hw a2
  obtain ⟨s4, r4, a4⟩ := text_hex1 hw a3
  obtain ⟨s5, r5, a5⟩ := text_hex2 hw a4
  obtain ⟨s6, r6, a6⟩ := text_end1 hw a5
  obtain ⟨t, hlast, hstate, hrest, hok, hbad⟩ := text_end2 hw a6 hfits
  have hrun := ((((r1.trans r2).trans r3).trans r4).trans r5).trans r6
  refine ⟨t, t.effects, (hrun.cast (m := p.length + 5) (by omega)).last hlast, hstate, hrest,
    fun hsum => ?_, fun hsum => ?_⟩
  · rw [hok ((digits_cancel_iff _ _ _).mpr hsum)]
    exact .refl _
  · exact hbad fun hzero => hsum ((digits_cancel_iff _ _ _).mp hzero)

/-- A byte is spelled by its two nibbles. -/
theorem nibbles_spell (x : Byte) :
    BitVec.ofNat 8 (16 * (x.extractLsb' 4 4).toNat + (x.extractLsb' 0 4).toNat) = x := by
  revert x
  decide

/-- Settles O44: `TEXTFRAME` carries the two nibbles of the payload's XOR as its digits. -/
theorem textFrameIsDelivered : Obligations.TextFrameIsDelivered := by
  unfold Obligations.TextFrameIsDelivered
  intro s p rest hwf hp hidle hin
  obtain ⟨t, last, hrun, hstate, hrest, hok, -⟩ :=
    textChecksumDecidesDelivery s p _ _ rest hwf hp hidle hin
  exact ⟨t, last, hrun, hok (nibbles_spell _), hstate, hrest⟩

end Sys2Proof.FrameRuns

/-! SUPPORT. Runs over a whole binary frame (spec 30_encoding.md R72, 42_binary_track.md R144 to R156), and
the bound on a binary frame in progress (60_exceptions.md R210). -/

namespace Sys2Proof.BinaryRuns

open Sys2Proof.Machine Sys2Proof.Laws Sys2Proof.Meanings Sys2Proof.Invariants Sys2Proof.FrameRuns

/-! ## The parts of a binary frame -/

/-- In a binary frame: `d` has been stored and summed, `exp_len` holds `n`, and `inp` is still to come. -/
structure BinAt (cfg : Config) (f : FsmState) (d : List Byte) (n : Half) (inp : List Event)
    (s : State) : Prop where
  cfg : s.cfg = cfg
  state : s.session.state = f
  proto : s.session.proto = .binary
  stored : written s = d
  summed : Summed s
  expLen : s.session.expLen = n
  input : s.input = inp

/-- Out of the frame, with nothing delivered and `inp` still to come. -/
structure Dropped (cnt : Nat) (n : Half) (inp : List Event) (s : State) : Prop where
  state : s.session.state = .waitForStart
  count : s.session.wrCnt = cnt
  expLen : s.session.expLen = n
  input : s.input = inp

section Binary

variable {cfg : Config} {f : FsmState} {d : List Byte} {n : Half} {b lo hi : Byte} {rest : List Event}
  {s : State}

theorem BinAt.count (h : BinAt cfg f d n rest s) : s.session.wrCnt = d.length := by
  rw [← h.stored, written_length]

/-- No byte is start-tested in the binary track (R78). -/
theorem BinAt.startTaken (h : BinAt cfg f d n rest s) (hf : f ≠ .waitForStart) (b : Byte) :
    startTaken s (.feed b) = false := by
  have hst : s.session.state ≠ .waitForStart := h.state ▸ hf
  simp [Sys2Proof.startTaken, startEnabled, hst, h.proto]

theorem bin_start (hw : TokensApart s.cfg) (hen : startEnabled s = true)
    (hin : s.input = .feed s.cfg.binSync1 :: rest) :
    ∃ t, Arms s.cfg.timeoutMs 1 s t ∧ BinAt s.cfg .expectSync2 [] s.session.expLen rest t := by
  have hdec := Encoding.decode_binSync1 hen hw.starts.symm
  have hnil : ∀ t : State, t.session.wrCnt = 0 → written t = [] := fun _ => written_eq_nil
  refine ⟨_, Arms.one (step_of_feed hin hdec (StartDetect.exec_startBin _)) rfl,
    ⟨rfl, rfl, rfl, hnil _ rfl, ?_, rfl, rfl⟩⟩
  rw [Summed, hnil _ rfl]
  rfl

/-- A step that goes on to `g` and writes `state` alone. -/
theorem bin_jump {g : FsmState} {i : Instr} (h : BinAt cfg f d n (.feed b :: rest) s)
    (hdec : decode s (.feed b) = i)
    (hexec : exec i { s with input := rest }
      = armed { s with input := rest } (goto g s.session)) :
    ∃ t, Arms cfg.timeoutMs 1 s t ∧ BinAt cfg g d n rest t := by
  obtain ⟨rfl, -, hproto, rfl, hsum, rfl, hin⟩ := h
  exact ⟨_, Arms.one (step_of_feed hin hdec hexec) rfl, ⟨rfl, rfl, hproto, rfl, hsum, rfl, rfl⟩⟩

/-- A step that stores and sums its byte and goes on to `g` with `m` in `exp_len`. -/
theorem bin_store {g : FsmState} {m : Half} {i : Instr} {k : Session → Session}
    (h : BinAt cfg f d n (.feed b :: rest) s) (hdec : decode s (.feed b) = i)
    (hexec : exec i { s with input := rest } = appending b k { s with input := rest })
    (hroom : d.length < cfg.C)
    (hk : ∀ ses : Session, k ses = { sum b ses with state := (k ses).state, expLen := (k ses).expLen })
    (hstate : (k (appended s b)).state = g) (hlen : (k (appended s b)).expLen = m) :
    ∃ t, Arms cfg.timeoutMs 1 s t ∧ BinAt cfg g (d ++ [b]) m rest t := by
  have hcnt := h.count
  obtain ⟨rfl, -, hproto, rfl, hsum, rfl, hin⟩ := h
  have hlt : s.session.wrCnt < s.cfg.C := hcnt ▸ hroom
  have hstep := step_of_feed hin hdec (hexec.trans (appending_below b k hlt))
  have hses := hk (appended { s with input := rest } b)
  have hwritten : written (commit { s with input := rest } (k (appended { s with input := rest } b))
      [arm s]) = written s ++ [b] := written_appended (by rw [commit_session, hses]; rfl)
        (by rw [commit_session, hses]; rfl) rfl
  refine ⟨_, Arms.one hstep rfl, ⟨rfl, hstate, ?_, hwritten, ?_, hlen, rfl⟩⟩
  · rw [commit_session, hses]
    exact hproto
  · refine summed_of_written hsum hwritten ?_
    rw [commit_session, hses]
    rfl

/-- A step that aborts leaves the count and `exp_len` as they are. -/
theorem bin_drop {i : Instr} (h : BinAt cfg f d n (.feed b :: rest) s)
    (hdec : decode s (.feed b) = i) {c : AbortCause}
    (hexec : exec i { s with input := rest } = aborted c { s with input := rest }) :
    ∃ t, Arms cfg.timeoutMs 1 s t ∧ Dropped d.length n rest t := by
  have hcnt := h.count
  obtain ⟨rfl, -, -, -, -, rfl, hin⟩ := h
  exact ⟨_, Arms.one (step_of_feed hin hdec hexec) rfl, ⟨rfl, hcnt, rfl, rfl⟩⟩

/-! ## The sync bytes and the length -/

theorem bin_sync2 (h : BinAt cfg .expectSync2 d n (.feed cfg.binSync2 :: rest) s) :
    ∃ t, Arms cfg.timeoutMs 1 s t ∧ BinAt cfg .expectLength d n rest t := by
  have hdec := (OperationRules.decode_eq_binSync2_iff s _).mpr
    ⟨h.state, h.startTaken nofun _, rfl⟩
  rw [h.cfg] at hdec
  exact bin_jump h hdec (exec_binSync2 _)

/-- Both sync bytes, from where the start-token test is enabled. -/
theorem bin_syncs (hw : TokensApart s.cfg) (hen : startEnabled s = true)
    (hin : s.input = .feed s.cfg.binSync1 :: .feed s.cfg.binSync2 :: rest) :
    ∃ t, Arms s.cfg.timeoutMs 2 s t ∧ BinAt s.cfg .expectLength [] s.session.expLen rest t := by
  obtain ⟨t, hst, ht⟩ := bin_start hw hen hin
  obtain ⟨u, htu, hu⟩ := bin_sync2 ht
  exact ⟨u, hst.trans htu, hu⟩

theorem bin_len0 (h : BinAt cfg .expectLength [] n (.feed lo :: rest) s) (hC : 1 ≤ cfg.C) :
    ∃ t, Arms cfg.timeoutMs 1 s t ∧ BinAt cfg .expectLength [lo] n rest t := by
  have hdec := (BinaryTrack.decode_eq_binLen0_iff s lo).mpr
    ⟨h.state, h.startTaken nofun _, h.count⟩
  exact bin_store h hdec (BinaryTrack.exec_binLen0 lo _) hC (fun _ => rfl) h.state h.expLen

/-- The length that the second length byte completes. -/
theorem BinAt.decodedLength (h : BinAt cfg f [lo] n rest s) (hi : Byte) :
    (decodedLength s hi).toNat = lo.toNat + 256 * hi.toNat := by
  have hcell : cellByte s 0 = lo := by
    have hw := h.stored
    rw [written, h.count] at hw
    exact List.singleton_inj.mp hw
  rw [Encoding.decodedLength_toNat, hcell]

theorem bin_len1 (h : BinAt cfg .expectLength [lo] n (.feed hi :: rest) s) (hC : 2 ≤ cfg.C)
    (hpos : 1 ≤ lo.toNat + 256 * hi.toNat) (hfits : lo.toNat + 256 * hi.toNat ≤ cfg.C) :
    ∃ t m, m.toNat = lo.toNat + 256 * hi.toNat ∧ Arms cfg.timeoutMs 1 s t
      ∧ BinAt cfg .expectPayload [lo, hi] m rest t := by
  have hlen := h.decodedLength hi
  have hdec := (BinaryTrack.decode_eq_binLen1_iff s hi).mpr
    ⟨h.state, h.startTaken nofun _, by rw [h.count]; exact Nat.one_ne_zero, hlen ▸ hpos,
      by rw [hlen, h.cfg]; exact hfits⟩
  obtain ⟨t, hst, ht⟩ := bin_store h hdec (BinaryTrack.exec_binLen1 hi _) hC (fun _ => rfl) rfl rfl
  exact ⟨t, _, hlen, hst, ht⟩

theorem bin_len1_zero (h : BinAt cfg .expectLength [0x00] n (.feed 0x00 :: rest) s) (hC : 2 ≤ cfg.C) :
    ∃ t, Arms cfg.timeoutMs 1 s t ∧ BinAt cfg .expectCheckA [0x00, 0x00] 0 rest t := by
  have hzero : Machine.decodedLength s 0x00 = 0 := BitVec.eq_of_toNat_eq (h.decodedLength 0x00)
  obtain ⟨hcell, -⟩ := (Encoding.decodedLength_eq_zero_iff s 0x00).mp hzero
  have hdec := (OperationRules.decode_eq_binLen1Zero_iff s 0x00).mpr
    ⟨h.state, h.startTaken nofun _, by rw [h.count]; exact Nat.one_ne_zero, hcell, rfl⟩
  exact bin_store h hdec (exec_binLen1Zero _) hC (fun _ => rfl) rfl rfl

/-- A length above the capacity: the byte is stored and the frame dropped. -/
theorem bin_len1_over (h : BinAt cfg .expectLength [lo] n (.feed hi :: rest) s) (hC : 2 ≤ cfg.C)
    (hover : cfg.C < lo.toNat + 256 * hi.toNat) :
    ∃ t, Arms cfg.timeoutMs 1 s t ∧ Dropped 2 n rest t := by
  have hcnt := h.count
  have hdec := (BinaryTrack.decode_eq_binLen1Ovf_iff s hi).mpr
    ⟨h.state, h.startTaken nofun _, by rw [hcnt]; exact Nat.one_ne_zero,
      by rw [h.decodedLength hi, h.cfg]; exact hover⟩
  obtain ⟨rfl, -, -, -, -, rfl, hin⟩ := h
  have hlt : s.session.wrCnt < s.cfg.C := hcnt ▸ hC
  have hexec := (BinaryTrack.exec_binLen1Ovf hi { s with input := rest }).trans
    (appending_below hi _ hlt)
  exact ⟨_, Arms.one (step_of_feed hin hdec hexec) rfl, ⟨rfl, congrArg (· + 1) hcnt, rfl, rfl⟩⟩

/-! ## The payload -/

/-- Payload bytes that are not the last one are stored, one step for each, while there is room. -/
theorem bin_payload {q : List Byte} (h : BinAt cfg .expectPayload d n (feeds q ++ rest) s)
    (hmore : d.length + q.length < n.toNat + 2) (hroom : d.length + q.length ≤ cfg.C) :
    ∃ t, Arms cfg.timeoutMs q.length s t ∧ BinAt cfg .expectPayload (d ++ q) n rest t := by
  induction q generalizing s d with
  | nil => exact ⟨s, .refl _ s, by simpa [feeds] using h⟩
  | cons b q ih =>
    rw [List.length_cons] at hmore hroom
    have hdec := (BinaryTrack.decode_eq_binPay_iff s b).mpr
      ⟨h.state, h.startTaken nofun _, by rw [h.count, h.cfg]; omega, by rw [h.count, h.expLen]; omega⟩
    obtain ⟨t, hst, ht⟩ := bin_store h hdec (BinaryTrack.exec_binPay b _) (by omega) (fun _ => rfl)
      h.state h.expLen
    have hlen : (d ++ [b]).length = d.length + 1 := by simp
    obtain ⟨u, htu, hu⟩ := ih ht (by omega) (by omega)
    exact ⟨u, (hst.trans htu).cast (Nat.add_comm ..), by simpa using hu⟩

theorem bin_payload_last (h : BinAt cfg .expectPayload d n (.feed b :: rest) s)
    (hlast : d.length + 1 = n.toNat + 2) (hroom : d.length < cfg.C) :
    ∃ t, Arms cfg.timeoutMs 1 s t ∧ BinAt cfg .expectCheckA (d ++ [b]) n rest t := by
  have hdec := (BinaryTrack.decode_eq_binPayLast_iff s b).mpr
    ⟨h.state, h.startTaken nofun _, by rw [h.count, h.cfg]; omega, by rw [h.count, h.expLen]; omega⟩
  exact bin_store h hdec (BinaryTrack.exec_binPayLast b _) hroom (fun _ => rfl) rfl h.expLen

/-- A payload byte that finds the buffer full drops the frame (R149). -/
theorem bin_payload_full (h : BinAt cfg .expectPayload d n (.feed b :: rest) s)
    (hfull : d.length = cfg.C) :
    ∃ t, Arms cfg.timeoutMs 1 s t ∧ Dropped cfg.C n rest t := by
  have hdec := (OperationRules.decode_eq_binPayOvf_iff s b).mpr
    ⟨h.state, h.startTaken nofun _, by rw [h.count, h.cfg, hfull]⟩
  rw [← hfull]
  exact bin_drop h hdec (exec_binPayOvf b _)

/-- The low and the high length byte of a length that 16 bits can say. -/
theorem lengthBytes_toNat {m : Nat} (h : m ≤ 65535) :
    (BitVec.ofNat 8 m).toNat + 256 * (BitVec.ofNat 8 (m / 256)).toNat = m := by
  simp only [BitVec.toNat_ofNat]
  omega

/-- From the first length byte to the last payload byte: everything the checksum covers is stored. -/
theorem bin_body {q : List Byte} (hw : TokensApart cfg)
    (h : BinAt cfg .expectLength [] n (feeds (summedBytes q) ++ rest) s) (hfits : q.length + 2 ≤ cfg.C) :
    ∃ t m, m.toNat = q.length ∧ Arms cfg.timeoutMs (q.length + 2) s t
      ∧ BinAt cfg .expectCheckA (summedBytes q) m rest t := by
  obtain ⟨hC, hCmax⟩ := hw.capacity
  have hlen := lengthBytes_toNat (m := q.length) (by omega)
  obtain ⟨t, hst, ht⟩ := bin_len0 (lo := BitVec.ofNat 8 q.length)
    (rest := .feed (BitVec.ofNat 8 (q.length / 256)) :: (feeds q ++ rest)) h (by omega)
  obtain rfl | ⟨q', b, rfl⟩ := q.eq_nil_or_concat'
  · obtain ⟨u, htu, hu⟩ := bin_len1_zero ht hC
    exact ⟨u, 0, rfl, hst.trans htu, hu⟩
  · have hq : (q' ++ [b]).length = q'.length + 1 := by simp
    obtain ⟨u, m, hm, htu, hu⟩ := bin_len1 ht hC (by omega) (by omega)
    rw [feeds, List.map_append, List.append_assoc] at hu
    obtain ⟨v, huv, hv⟩ := bin_payload hu (by simp; omega) (by simp; omega)
    obtain ⟨w, hvw, hw⟩ := bin_payload_last hv (by simp; omega) (by simp; omega)
    refine ⟨w, m, by omega, (((hst.trans htu).trans huv).trans hvw).cast (by omega), ?_⟩
    simpa [summedBytes, lengthBytes] using hw

/-! ## The checksum bytes -/

theorem BinAt.accumulators (h : BinAt cfg f d n rest s) :
    s.session.acc1 = (runningSums d).1 ∧ s.session.acc2 = (runningSums d).2 :=
  Prod.mk.inj (h.summed.trans (congrArg runningSums h.stored))

theorem bin_checkA (h : BinAt cfg .expectCheckA d n (.feed (runningSums d).1 :: rest) s) :
    ∃ t, Arms cfg.timeoutMs 1 s t ∧ BinAt cfg .expectCheckB d n rest t :=
  bin_jump h ((BinaryTrack.decode_eq_binCka_iff s _).mpr
    ⟨h.state, h.startTaken nofun _, h.accumulators.1.symm⟩) (BinaryTrack.exec_binCka _ _)

theorem bin_checkA_bad (h : BinAt cfg .expectCheckA d n (.feed b :: rest) s)
    (hne : b ≠ (runningSums d).1) : ∃ t, Arms cfg.timeoutMs 1 s t ∧ Dropped d.length n rest t :=
  bin_drop h ((BinaryTrack.decode_eq_binCkaBad_iff s _).mpr
    ⟨h.state, h.startTaken nofun _, h.accumulators.1 ▸ hne⟩) (BinaryTrack.exec_binCkaBad _ _)

theorem bin_checkB_bad (h : BinAt cfg .expectCheckB d n (.feed b :: rest) s)
    (hne : b ≠ (runningSums d).2) : ∃ t, Arms cfg.timeoutMs 1 s t ∧ Dropped d.length n rest t :=
  bin_drop h ((BinaryTrack.decode_eq_binCkbBad_iff s _).mpr
    ⟨h.state, h.startTaken nofun _, h.accumulators.2 ▸ hne⟩) (BinaryTrack.exec_binCkbBad _ _)

/-- The right second checksum byte delivers what was stored behind the length bytes. -/
theorem bin_checkB (h : BinAt cfg .expectCheckB d n (.feed (runningSums d).2 :: rest) s)
    (hlen : d.length = n.toNat + 2) (hfits : d.length ≤ cfg.C) :
    ∃ t, step s = .next t ∧ t.session.state = .waitForStart ∧ t.input = rest
      ∧ t.effects = [.frameBinary n.toNat (d.drop 2), .armTimeout cfg.timeoutMs] := by
  have hdec := (OperationRules.decode_eq_binCkbOk_iff s _).mpr
    ⟨h.state, h.startTaken nofun _, h.accumulators.2.symm⟩
  have hcnt := h.count
  obtain ⟨rfl, -, -, rfl, -, rfl, hin⟩ := h
  have hexec := (exec_binCkbOk (runningSums (written s)).2 { s with input := rest }).trans
    (delivering_inside _ _ _ (.inr ((Nat.add_comm ..).trans_le (hlen ▸ hfits))))
  refine ⟨_, step_of_feed hin hdec hexec, rfl, rfl, ?_⟩
  have hbytes : cellsFrom s 2 s.session.expLen.toNat = (written s).drop 2 :=
    cellsFrom_eq_drop (by omega)
  rw [← hbytes]
  rfl

end Binary

/-! ## The obligations -/

/-- A binary frame up to its checksum bytes, from where the start-token test is enabled. -/
theorem bin_frame_body {s : State} {q : List Byte} {rest : List Event} (hwf : s.cfg.wellFormed = true)
    (hfits : q.length + 2 ≤ s.cfg.C) (hidle : s.session.state = .waitForStart ∨ s.session.proto = .text)
    (hin : s.input = .feed s.cfg.binSync1 :: .feed s.cfg.binSync2 :: (feeds (summedBytes q) ++ rest)) :
    ∃ t m, m.toNat = q.length ∧ Arms s.cfg.timeoutMs (q.length + 4) s t
      ∧ BinAt s.cfg .expectCheckA (summedBytes q) m rest t := by
  have hw := tokensApart hwf
  obtain ⟨t, hst, ht⟩ := bin_syncs hw ((Encoding.startEnabled_iff s).mpr hidle) hin
  obtain ⟨u, m, hm, htu, hu⟩ := bin_body hw ht hfits
  exact ⟨u, m, hm, (hst.trans htu).cast (by omega), hu⟩

theorem summedBytes_length (q : List Byte) : (summedBytes q).length = q.length + 2 := by
  rw [summedBytes, List.length_append, Nat.add_comm]
  rfl

/-- Settles O46: the parts of the frame one after the other; no payload byte is tested. -/
theorem binaryFrameIsDelivered : Obligations.BinaryFrameIsDelivered := by
  unfold Obligations.BinaryFrameIsDelivered
  intro s q rest hwf hfits hidle hin
  obtain ⟨t, m, hm, hst, ht⟩ := bin_frame_body hwf hfits hidle
    (by simpa [feeds, binFrame, binFrameWith] using hin)
  obtain ⟨u, htu, hu⟩ := bin_checkA ht
  have hlen := summedBytes_length q
  obtain ⟨v, hlast, hstate, hrest, heff⟩ := bin_checkB hu (by omega) (by omega)
  refine ⟨v, v.effects, ((hst.trans htu).cast (by omega)).last hlast, ?_, hstate, hrest⟩
  have hpayload : (summedBytes q).drop 2 = q := rfl
  rw [heff, hm, hpayload]

/-- Settles O47: the body of the frame, then the checksum byte that is wrong. -/
theorem binaryChecksumDecidesDelivery : Obligations.BinaryChecksumDecidesDelivery := by
  unfold Obligations.BinaryChecksumDecidesDelivery
  intro s q a b rest hwf hfits hidle hin
  obtain ⟨t, m, hm, hst, ht⟩ := bin_frame_body (rest := .feed a :: .feed b :: rest) hwf hfits hidle
    (by simpa [feeds, binFrameWith] using hin)
  refine ⟨fun ha => ?first, fun ha hb => ?second⟩
  case first =>
    obtain ⟨u, htu, hu⟩ := bin_checkA_bad ht ha
    exact ⟨u, hst.trans htu, hu.state, hu.input⟩
  case second =>
    subst ha
    obtain ⟨u, htu, hu⟩ := bin_checkA ht
    obtain ⟨v, huv, hv⟩ := bin_checkB_bad hu hb
    exact ⟨v, (hst.trans htu).trans huv, hv.state, hv.input⟩

/-- Settles O48: the second length byte completes a length above the capacity. -/
theorem overlongLengthDropsFrame : Obligations.OverlongLengthDropsFrame := by
  unfold Obligations.OverlongLengthDropsFrame
  intro s lo hi rest hwf hidle hover hin
  have hw := tokensApart hwf
  obtain ⟨hC, -⟩ := hw.capacity
  obtain ⟨t, hst, ht⟩ := bin_syncs hw ((Encoding.startEnabled_iff s).mpr hidle) hin
  obtain ⟨u, htu, hu⟩ := bin_len0 ht (by omega)
  obtain ⟨v, huv, hv⟩ := bin_len1_over hu hC hover
  exact ⟨v, (hst.trans htu).trans huv, hv.state, hv.count, hv.expLen, hv.input⟩

/-- Settles O49: all payload bytes but the last fill the buffer, and none of them is the declared last. -/
theorem payloadBeyondBufferIsDropped : Obligations.PayloadBeyondBufferIsDropped := by
  unfold Obligations.PayloadBeyondBufferIsDropped
  intro s n q rest hwf hidle hn hover hq hin
  have hw := tokensApart hwf
  obtain ⟨hC, hCmax⟩ := hw.capacity
  have hlen := lengthBytes_toNat (m := n) (by omega)
  obtain rfl | ⟨q', b, rfl⟩ := q.eq_nil_or_concat'
  · rw [List.length_nil] at hq
    omega
  · have hq' : q'.length = s.cfg.C - 2 := by simp at hq; omega
    obtain ⟨t1, r1, a1⟩ := bin_syncs hw ((Encoding.startEnabled_iff s).mpr hidle) hin
    obtain ⟨t2, r2, a2⟩ := bin_len0 (lo := BitVec.ofNat 8 n)
      (rest := .feed (BitVec.ofNat 8 (n / 256)) :: (feeds q' ++ .feed b :: rest))
      (by simpa [feeds, lengthBytes] using a1) (by omega)
    obtain ⟨t3, m, hm, r3, a3⟩ := bin_len1 a2 hC (by omega) (by omega)
    obtain ⟨t4, r4, a4⟩ := bin_payload a3 (by simp; omega) (by simp; omega)
    obtain ⟨t5, r5, a5⟩ := bin_payload_full a4 (by simp; omega)
    exact ⟨t5, ((((r1.trans r2).trans r3).trans r4).trans r5).cast (by omega), a5.state, a5.count,
      a5.input⟩

/-! ## The bound on a binary frame in progress -/

/-- An append that completes has raised the count by one, or returned to `WaitForStart` at a full buffer. -/
theorem exec_count_of_appends {s t : State} {i : Instr} (hw : (writeSet i).buf = true)
    (h : exec i s = .next t) :
    t.session.state = .waitForStart
      ∨ (s.session.wrCnt < s.cfg.C ∧ t.session.wrCnt = s.session.wrCnt + 1) := by
  obtain ⟨b, k, -, hexec, hk⟩ := exec_of_appends hw s
  obtain ⟨hlt, rfl⟩ | ⟨-, rfl⟩ := appending_next (hexec ▸ h)
  · exact .inr ⟨hlt, (hk _).2⟩
  · exact .inl rfl

/-- Every operation of the binary track leaves the frame or comes closer to its end (R210). -/
theorem exec_approaches_end {s t : State} {i : Instr} {c : FsmState} (hc : contextOf i = some c)
    (hst : s.session.state = c) (htrack : c.inBinaryTrack = true) (ht : exec i s = .next t) :
    t.session.state = .waitForStart
      ∨ (t.session.state.inBinaryTrack = true ∧ bytesLeft t < bytesLeft s) := by
  have hcfg := StepLaws.exec_cfg ht
  obtain htarget | ⟨-, hidle⟩ := StepLaws.exec_state ht
  swap
  · exact .inl hidle
  rw [hst] at htarget
  cases i with
  | binSync2 | binCka =>
    cases hc
    refine .inr ⟨by rw [htarget]; rfl, ?_⟩
    simp only [bytesLeft, htarget, hst, hcfg, StepLaws.targetOf]
    omega
  | binLen0 | binLen1 | binLen1Zero | binPay | binPayLast =>
    cases hc
    obtain hidle | ⟨hlt, hcnt⟩ := exec_count_of_appends rfl ht
    · exact .inl hidle
    · refine .inr ⟨by rw [htarget]; rfl, ?_⟩
      simp only [bytesLeft, htarget, hst, hcfg, hcnt, StepLaws.targetOf]
      omega
  | binSync2Bad | binLen1Ovf | binPayOvf | binCkaBad | binCkbOk | binCkbBad => exact .inl htarget
  | startText | startBin | abort | reset => exact absurd hc nofun
  | _ =>
    cases hc
    exact absurd htrack Bool.false_ne_true

/-- A binary frame in progress takes at least one more byte, and at most `C + 3`. -/
theorem bytesLeft_bounds {s : State} (h : Inv s) (htrack : s.session.state.inBinaryTrack = true) :
    1 ≤ bytesLeft s ∧ bytesLeft s ≤ s.cfg.C + 3 := by
  have hcursor := h.cursor
  have hcheck := h.atCheck
  unfold bytesLeft
  cases hst : s.session.state <;> simp_all [FsmState.inBinaryTrack] <;> omega

/-- One byte of a binary frame in progress. -/
theorem step_approaches_end {s : State} {b : Byte} {rest : List Event} (h : Inv s)
    (htrack : s.session.state.inBinaryTrack = true) (hin : s.input = .feed b :: rest) :
    ∃ t, step s = .next t ∧ Inv t ∧ t.input = rest
      ∧ (t.session.state = .waitForStart
        ∨ (t.session.state.inBinaryTrack = true ∧ bytesLeft t < bytesLeft s)) := by
  obtain ⟨t, ht⟩ := StepLaws.stepNeverStops s h
  have hexec := step_of_cons hin ▸ ht
  have hoff : startEnabled s = false := by
    rw [TableDecoder.startEnabled_eq h.textMode h.binaryMode, htrack]
    rfl
  have hc : contextOf (decode s (.feed b)) = some s.session.state :=
    (StepLaws.decode_feed_cases s b).resolve_right fun hstart => by simp [hoff] at hstart
  exact ⟨t, ht, step_keeps_inv h ht, by rw [exec_next hexec]; rfl,
    exec_approaches_end (s := { s with input := rest }) hc rfl htrack hexec⟩

/-- Fed enough bytes, a binary frame in progress ends. -/
theorem reaches_idle {bs : List Byte} {rest : List Event} {s : State} (h : Inv s)
    (htrack : s.session.state.inBinaryTrack = true) (hin : s.input = feeds bs ++ rest)
    (henough : bytesLeft s ≤ bs.length) :
    ∃ k t effs, 1 ≤ k ∧ k ≤ bytesLeft s ∧ trace k s = some (t, effs)
      ∧ t.session.state = .waitForStart := by
  obtain ⟨hpos, -⟩ := bytesLeft_bounds h htrack
  induction bs generalizing s with
  | nil => exact absurd (hpos.trans henough) (by decide)
  | cons b bs ih =>
    obtain ⟨t, hstep, hinv, hrest, hidle | ⟨htrack', hless⟩⟩ := step_approaches_end h htrack hin
    · exact ⟨1, t, _, le_rfl, hpos, trace_one hstep, hidle⟩
    · obtain ⟨hpos', -⟩ := bytesLeft_bounds hinv htrack'
      rw [List.length_cons] at henough
      obtain ⟨k, u, effs, -, hk, hrun, hidle⟩ := ih hinv htrack' hrest (by omega) hpos'
      refine ⟨1 + k, u, [t.effects] ++ effs, by omega, by omega, ?_, hidle⟩
      rw [trace_add (trace_one hstep), hrun, Option.map_some]

/-- Settles O50: each byte of a frame in progress leaves the frame or lowers `bytesLeft`. -/
theorem binaryFrameEndsWithinBound : Obligations.BinaryFrameEndsWithinBound := by
  unfold Obligations.BinaryFrameEndsWithinBound
  intro s bs rest h htrack hin henough
  obtain ⟨-, hmax⟩ := bytesLeft_bounds h htrack
  exact ⟨hmax, reaches_idle h htrack hin henough⟩

end Sys2Proof.BinaryRuns

/-! SUPPORT. What one track cannot learn from the other (spec 10_state.md R34, R239): registers that the
operations of a track neither read nor write may hold anything. -/

namespace Sys2Proof.Noninterference

open Sys2Proof.Machine Sys2Proof.Laws Sys2Proof.Meanings

/-! ## Changing registers behind the machine's back -/

/-- `s` with its Session replaced through `g`. -/
def mapSession (g : Session → Session) (s : State) : State := { s with session := g s.session }

/-- A change of registers other than `state`, the count and the buffer, blind to those three. -/
structure Aside (g : Session → Session) : Prop where
  state : ∀ ses, (g ses).state = ses.state
  wrCnt : ∀ ses, (g ses).wrCnt = ses.wrCnt
  buf : ∀ ses, (g ses).buf = ses.buf
  jump : ∀ f ses, g (goto f ses) = goto f (g ses)
  store : ∀ (ses : Session) m n, g { ses with buf := m, wrCnt := n } = { g ses with buf := m, wrCnt := n }

section Aside

variable {g : Session → Session} {s t : State}

theorem cellByte_mapSession (hg : Aside g) (a : Nat) : cellByte (mapSession g s) a = cellByte s a := by
  rw [cellByte, mapSession, hg.buf]
  rfl

/-- An append does the same with `g` before it as after it, when what follows the append does. -/
theorem appending_mapSession (hg : Aside g) {b : Byte} {k k' : Session → Session}
    (hk : ∀ ses, k' (g ses) = g (k ses)) (h : appending b k s = .next t) :
    appending b k' (mapSession g s) = .next (mapSession g t) := by
  have hcnt : (mapSession g s).session.wrCnt = s.session.wrCnt := hg.wrCnt s.session
  have happended : appended (mapSession g s) b = g (appended s b) := by
    rw [appended, appended, hg.store, hcnt]
    simp only [mapSession, hg.buf]
  obtain ⟨hlt, rfl⟩ | ⟨hfull, rfl⟩ := appending_next h
  · rw [appending_below b k' (hcnt.trans_lt hlt), happended, hk]
    rfl
  · rw [appending_full b k' (hcnt.trans hfull), aborted, armed, raiseAbort_eq]
    exact congrArg (fun ses => Host.Outcome.next (commit s ses [arm s])) (hg.jump _ _).symm

/-- A delivery does the same with `g` before it as after it. -/
theorem delivering_mapSession (hg : Aside g) {frame : Nat → List Byte → Effect} {base n : Nat}
    (h : delivering frame base n s = .next t) :
    delivering frame base n (mapSession g s) = .next (mapSession g t) := by
  obtain ⟨hin, rfl⟩ := delivering_next h
  rw [delivering_inside (s := mapSession g s) frame base n hin]
  simp only [cellByte_mapSession hg]
  exact congrArg (fun ses => Host.Outcome.next (commit s ses _)) (hg.jump _ _).symm

/-- A step over a byte, when its operation and its meaning are unmoved by `g`. -/
theorem step_mapSession {b : Byte} {rest : List Event} (hin : s.input = .feed b :: rest)
    (hdec : decode (mapSession g s) (.feed b) = decode s (.feed b))
    (hexec : ∀ u : State, exec (decode s (.feed b)) u = .next t →
      exec (decode s (.feed b)) (mapSession g u) = .next (mapSession g t))
    (h : step s = .next t) : step (mapSession g s) = .next (mapSession g t) := by
  have hin' : (mapSession g s).input = .feed b :: rest := hin
  rw [step_of_cons hin] at h
  rw [step_of_cons hin', hdec]
  exact hexec _ h

end Aside

/-! ## The text track and the binary registers -/

/-- Other values in the registers of the binary track. -/
def setBinary (a1 a2 : Byte) (n : Half) (ses : Session) : Session :=
  { ses with acc1 := a1, acc2 := a2, expLen := n }

theorem aside_setBinary (a1 a2 : Byte) (n : Half) : Aside (setBinary a1 a2 n) :=
  ⟨fun _ => rfl, fun _ => rfl, fun _ => rfl, fun _ _ => rfl, fun _ _ _ => rfl⟩

/-- The tests of the text track read no register of the binary one. -/
theorem decode_setBinary {s : State} (htrack : s.session.state.inTextTrack = true) (a1 a2 : Byte)
    (n : Half) (b : Byte) :
    decode (mapSession (setBinary a1 a2 n) s) (.feed b) = decode s (.feed b) := by
  have hstep2 : decodeInState (mapSession (setBinary a1 a2 n) s) b = decodeInState s b := by
    unfold decodeInState
    simp only [mapSession, setBinary]
    cases hst : s.session.state with
    | expectPayloadOrChecksumTok | expectChecksumHex1 | expectChecksumHex2 | expectEnd1 | expectEnd2 => rfl
    | _ => exact absurd htrack (by rw [hst]; decide)
  rw [decode, decode, decodeFeed, hstep2]
  rfl

/-- No meaning of the text track reads or writes a register of the binary one. -/
theorem exec_setBinary {s t : State} {i : Instr} {c : FsmState} (a1 a2 : Byte) (n : Half)
    (hi : i = .startText ∨ (contextOf i = some c ∧ c.inTextTrack = true)) (h : exec i s = .next t) :
    exec i (mapSession (setBinary a1 a2 n) s) = .next (mapSession (setBinary a1 a2 n) t) := by
  have hg := aside_setBinary a1 a2 n
  cases i with
  | txtAppend b => exact appending_mapSession hg (fun _ => rfl) h
  | txtEnd2Ok => exact delivering_mapSession hg h
  | startText | txtNoise | txtCstok | txtOvf | txtHex1 | txtHex1Bad | txtHex2 | txtHex2Bad | txtEnd1
  | txtEnd1Bad | txtEnd2Bad | txtEnd2Ckfail => obtain rfl := Host.Outcome.next.inj h; rfl
  | _ =>
    obtain ⟨hc, htrack⟩ := hi.resolve_left nofun
    cases hc <;> cases htrack

/-- Settles O51: with BIN_SYNC1 left out a byte of the text track performs a text operation or starts a
text frame, and neither its selection nor its meaning involves the binary registers. -/
theorem textTrackIgnoresBinaryRegisters : Obligations.TextTrackIgnoresBinaryRegisters := by
  unfold Obligations.TextTrackIgnoresBinaryRegisters
  intro s t b rest a1 a2 n hin htrack _ hne h
  have hi : decode s (.feed b) = .startText
      ∨ (contextOf (decode s (.feed b)) = some s.session.state
        ∧ s.session.state.inTextTrack = true) := by
    obtain hc | ⟨-, hstart | hstart⟩ := StepLaws.decode_feed_cases s b
    · exact .inr ⟨hc, htrack⟩
    · exact .inl hstart
    · obtain ⟨-, -, hsync⟩ := (StartDetect.decode_eq_startBin_iff s b).mp hstart
      exact absurd hsync hne
  exact step_mapSession (g := setBinary a1 a2 n) hin (decode_setBinary htrack a1 a2 n b)
    (fun _ hexec => exec_setBinary a1 a2 n hi hexec) h

/-! ## The binary track and the text accumulator -/

/-- Another value in the text accumulator. -/
def setXor (x : Byte) (ses : Session) : Session := { ses with xorAcc := x }

theorem aside_setXor (x : Byte) : Aside (setXor x) :=
  ⟨fun _ => rfl, fun _ => rfl, fun _ => rfl, fun _ _ => rfl, fun _ _ _ => rfl⟩

/-- The tests of the binary track do not read the text accumulator. -/
theorem decode_setXor {s : State} (htrack : s.session.state.inBinaryTrack = true) (x b : Byte) :
    decode (mapSession (setXor x) s) (.feed b) = decode s (.feed b) := by
  have hstep2 : decodeInState (mapSession (setXor x) s) b = decodeInState s b := by
    unfold decodeInState
    simp only [mapSession, setXor]
    cases hst : s.session.state with
    | expectSync2 | expectLength | expectPayload | expectCheckA | expectCheckB => rfl
    | _ => exact absurd htrack (by rw [hst]; decide)
  rw [decode, decode, decodeFeed, hstep2]
  rfl

/-- No meaning of the binary track reads or writes the text accumulator. -/
theorem exec_setXor {s t : State} {i : Instr} {c : FsmState} (x : Byte) (hc : contextOf i = some c)
    (htrack : c.inBinaryTrack = true) (h : exec i s = .next t) :
    exec i (mapSession (setXor x) s) = .next (mapSession (setXor x) t) := by
  have hg := aside_setXor x
  cases i with
  | binLen0 | binLen1Ovf | binLen1Zero | binLen1 | binPayLast | binPay =>
    exact appending_mapSession hg (fun _ => rfl) h
  | binCkbOk b => exact delivering_mapSession hg h
  | binSync2 | binSync2Bad | binPayOvf | binCka | binCkaBad | binCkbBad =>
    obtain rfl := Host.Outcome.next.inj h; rfl
  | _ => cases hc <;> cases htrack

/-- Settles O52: in the binary track, where no byte is start-tested, a byte performs a binary operation,
and neither its selection nor its meaning involves the text accumulator. -/
theorem binaryTrackIgnoresTextAccumulator : Obligations.BinaryTrackIgnoresTextAccumulator := by
  unfold Obligations.BinaryTrackIgnoresTextAccumulator
  intro s t b rest x hin htrack hproto h
  have hne : s.session.state ≠ .waitForStart := fun hst => by rw [hst] at htrack; cases htrack
  have hoff : startEnabled s = false := by simp [startEnabled, hne, hproto]
  have hc := (StepLaws.decode_feed_cases s b).resolve_right fun hstart => by simp [hoff] at hstart
  exact step_mapSession (g := setXor x) hin (decode_setXor htrack x b)
    (fun _ hexec => exec_setXor x hc htrack hexec) h

end Sys2Proof.Noninterference

/-! SUPPORT. Frames learn nothing from each other (spec 10_state.md R32): two Framers that agree on what the
frame in progress has written stay in agreement and emit the same effects, whatever earlier frames and the
power-up left in the rest of the state. -/

namespace Sys2Proof.RetainedState

open Sys2Proof.Machine Sys2Proof.Laws Sys2Proof.Meanings Sys2Proof.Invariants

/-- What a state shows of the frame in progress: where it is, the bytes stored, the accumulator of a text
frame and the declared length of a binary one. In `WaitForStart` it is `state` alone. -/
structure SameFrame (s t : State) : Prop where
  state : t.session.state = s.session.state
  stored : s.session.state ≠ .waitForStart → written t = written s
  xorAcc : s.session.state.inTextTrack = true → t.session.xorAcc = s.session.xorAcc
  expLen : s.session.state = .expectPayload ∨ s.session.state = .expectCheckA
    ∨ s.session.state = .expectCheckB → t.session.expLen = s.session.expLen

section SameFrame

variable {s t s' t' : State} {b : Byte} {i : Instr}

theorem sameFrame_of_idle (hs : s.session.state = .waitForStart)
    (ht : t.session.state = .waitForStart) : SameFrame s t where
  state := ht.trans hs.symm
  stored := fun h => absurd hs h
  xorAcc := fun h => by rw [hs] at h; cases h
  expLen := fun h => by rw [hs] at h; exact absurd h (by decide)

theorem SameFrame.count (h : SameFrame s t) (hne : s.session.state ≠ .waitForStart) :
    t.session.wrCnt = s.session.wrCnt := by
  rw [← written_length t, h.stored hne, written_length]

/-- A stored byte reads the same in both states. -/
theorem SameFrame.cell (h : SameFrame s t) (hne : s.session.state ≠ .waitForStart) {a : Nat}
    (ha : a < s.session.wrCnt) : cellByte t a = cellByte s a := by
  have hcnt := h.count hne
  have hget : ∀ u : State, a < u.session.wrCnt → (written u)[a]? = some (cellByte u a) :=
    fun u hu => by rw [written, List.getElem?_map, List.getElem?_range hu]; rfl
  have hread := hget t (hcnt ▸ ha)
  rw [h.stored hne, hget s ha] at hread
  exact (Option.some.inj hread).symm

theorem SameFrame.cellsFrom (h : SameFrame s t) (hne : s.session.state ≠ .waitForStart) {base n : Nat}
    (hn : s.session.wrCnt = base + n) : cellsFrom t base n = cellsFrom s base n := by
  rw [FrameRuns.cellsFrom_eq_drop hn, FrameRuns.cellsFrom_eq_drop ((h.count hne).trans hn), h.stored hne]

/-- With I-7 the running sums agree as well. -/
theorem SameFrame.sums (h : SameFrame s t) (hs : Inv s) (ht : Inv t)
    (htrack : s.session.state.inBinaryTrack = true) :
    t.session.acc1 = s.session.acc1 ∧ t.session.acc2 = s.session.acc2 := by
  have hne : s.session.state ≠ .waitForStart := fun hst => by rw [hst] at htrack; cases htrack
  have hsum := ht.sumLaw (h.state ▸ htrack)
  rw [h.stored hne, ← hs.sumLaw htrack] at hsum
  exact Prod.mk.inj hsum

/-! ## Both states select the same operation -/

theorem SameFrame.startEnabled (h : SameFrame s t) (hs : Inv s) (ht : Inv t) :
    startEnabled t = startEnabled s := by
  rw [TableDecoder.startEnabled_eq hs.textMode hs.binaryMode,
    TableDecoder.startEnabled_eq ht.textMode ht.binaryMode, h.state]

theorem SameFrame.decodedLength (h : SameFrame s t) (hst : s.session.state = .expectLength)
    (hsecond : s.session.wrCnt ≠ 0) (b : Byte) : decodedLength t b = decodedLength s b := by
  have hne : s.session.state ≠ .waitForStart := fun h => by rw [h] at hst; cases hst
  rw [Machine.decodedLength, h.cell hne (Nat.pos_of_ne_zero hsecond)]
  rfl

/-- The tests of each state read only what the two states agree on. -/
theorem SameFrame.decodeInState (h : SameFrame s t) (hs : Inv s) (ht : Inv t) (hcfg : t.cfg = s.cfg)
    (b : Byte) : decodeInState t b = decodeInState s b := by
  have hstate := h.state
  have hcount := h.count
  have hsums := h.sums hs ht
  cases hst : s.session.state with
  | waitForStart =>
    rw [Encoding.decodeInState_waitForStart hst, Encoding.decodeInState_waitForStart (hstate.trans hst)]
  | expectPayloadOrChecksumTok =>
    rw [Encoding.decodeInState_expectPayloadOrChecksumTok hst,
      Encoding.decodeInState_expectPayloadOrChecksumTok (hstate.trans hst), hcfg,
      hcount (by rw [hst]; decide)]
  | expectChecksumHex1 =>
    rw [Encoding.decodeInState_expectChecksumHex1 hst,
      Encoding.decodeInState_expectChecksumHex1 (hstate.trans hst)]
  | expectChecksumHex2 =>
    rw [Encoding.decodeInState_expectChecksumHex2 hst,
      Encoding.decodeInState_expectChecksumHex2 (hstate.trans hst)]
  | expectEnd1 =>
    rw [Encoding.decodeInState_expectEnd1 hst, Encoding.decodeInState_expectEnd1 (hstate.trans hst), hcfg]
  | expectEnd2 =>
    rw [Encoding.decodeInState_expectEnd2 hst, Encoding.decodeInState_expectEnd2 (hstate.trans hst), hcfg,
      h.xorAcc (by rw [hst]; rfl)]
  | expectSync2 =>
    rw [Encoding.decodeInState_expectSync2 hst, Encoding.decodeInState_expectSync2 (hstate.trans hst), hcfg]
  | expectLength =>
    rw [Encoding.decodeInState_expectLength hst, Encoding.decodeInState_expectLength (hstate.trans hst),
      hcfg, hcount (by rw [hst]; decide)]
    by_cases hfirst : s.session.wrCnt = 0
    · rw [if_pos hfirst, if_pos hfirst]
    · rw [h.decodedLength hst hfirst]
  | expectPayload =>
    rw [Encoding.decodeInState_expectPayload hst, Encoding.decodeInState_expectPayload (hstate.trans hst),
      hcfg, hcount (by rw [hst]; decide), h.expLen (.inl hst)]
  | expectCheckA =>
    rw [Encoding.decodeInState_expectCheckA hst, Encoding.decodeInState_expectCheckA (hstate.trans hst),
      (hsums (by rw [hst]; rfl)).1]
  | expectCheckB =>
    rw [Encoding.decodeInState_expectCheckB hst, Encoding.decodeInState_expectCheckB (hstate.trans hst),
      (hsums (by rw [hst]; rfl)).2]

theorem SameFrame.decode (h : SameFrame s t) (hs : Inv s) (ht : Inv t) (hcfg : t.cfg = s.cfg)
    (e : Event) : decode t e = decode s e := by
  cases e with
  | abort | reset => rfl
  | feed b =>
    have htext : isTStart t b = isTStart s b := by rw [isTStart, hcfg, isTStart]
    have hbin : isBSync1 t b = isBSync1 s b := by rw [isBSync1, hcfg, isBSync1]
    rw [Sys2Proof.decode, decodeFeed, htext, hbin, h.startEnabled hs ht, h.decodeInState hs ht hcfg]
    rfl

/-! ## The operation keeps the agreement -/

/-- Both states append the same byte, or both find their buffers full. -/
theorem SameFrame.appending (h : SameFrame s t) (hne : s.session.state ≠ .waitForStart)
    (hcfg : t.cfg = s.cfg) {k k' : Session → Session}
    (hs : appending b k s = .next s') (ht : appending b k' t = .next t')
    (hk : ∀ ses, (k ses).buf = ses.buf ∧ (k ses).wrCnt = ses.wrCnt)
    (hk' : ∀ ses, (k' ses).buf = ses.buf ∧ (k' ses).wrCnt = ses.wrCnt)
    (hstate : (k' (appended t b)).state = (k (appended s b)).state)
    (hxor : (k (appended s b)).state.inTextTrack = true →
      (k' (appended t b)).xorAcc = (k (appended s b)).xorAcc)
    (hlen : (k (appended s b)).state = .expectPayload ∨ (k (appended s b)).state = .expectCheckA
      ∨ (k (appended s b)).state = .expectCheckB →
      (k' (appended t b)).expLen = (k (appended s b)).expLen) : SameFrame s' t' := by
  have hcnt := h.count hne
  obtain ⟨hlt, rfl⟩ | ⟨hfull, rfl⟩ := appending_next hs
  · obtain ⟨-, rfl⟩ | ⟨hfull, -⟩ := appending_next ht
    · refine ⟨hstate, fun _ => ?_, hxor, hlen⟩
      have hws : written (commit s (k (appended s b)) [arm s]) = written s ++ [b] :=
        written_appended (hk (appended s b)).1 (hk (appended s b)).2 rfl
      have hwt : written (commit t (k' (appended t b)) [arm t]) = written t ++ [b] :=
        written_appended (hk' (appended t b)).1 (hk' (appended t b)).2 rfl
      rw [hws, hwt, h.stored hne]
    · rw [hcnt, hcfg] at hfull
      exact absurd hfull hlt.ne
  · obtain ⟨hlt, -⟩ | ⟨-, rfl⟩ := appending_next ht
    · rw [hcnt, hcfg] at hlt
      exact absurd hfull hlt.ne
    · exact sameFrame_of_idle rfl rfl

/-- Both states jump, leaving buffer and count alone. -/
theorem SameFrame.jump (h : SameFrame s t) (hne : s.session.state ≠ .waitForStart)
    {ses ses' : Session} (hs : armed s ses = .next s') (ht : armed t ses' = .next t')
    (hbuf : ses.buf = s.session.buf ∧ ses.wrCnt = s.session.wrCnt)
    (hbuf' : ses'.buf = t.session.buf ∧ ses'.wrCnt = t.session.wrCnt)
    (hstate : ses'.state = ses.state)
    (hxor : ses.state.inTextTrack = true → ses'.xorAcc = ses.xorAcc)
    (hlen : ses.state = .expectPayload ∨ ses.state = .expectCheckA ∨ ses.state = .expectCheckB →
      ses'.expLen = ses.expLen) : SameFrame s' t' := by
  obtain rfl := armed_next hs
  obtain rfl := armed_next ht
  refine ⟨hstate, fun _ => ?_, hxor, hlen⟩
  rw [written_congr (s := s) (t := commit s ses [arm s]) hbuf.1 hbuf.2 rfl,
    written_congr (s := t) (t := commit t ses' [arm t]) hbuf'.1 hbuf'.2 rfl, h.stored hne]

/-- An operation that ends the frame leaves nothing to agree on. -/
theorem sameFrame_of_target (hs : exec i s = .next s') (ht : exec i t = .next t')
    (hend : ∀ f, StepLaws.targetOf f i = .waitForStart) : SameFrame s' t' := by
  refine sameFrame_of_idle ?_ ?_
  · exact (StepLaws.exec_state hs).elim (·.trans (hend _)) And.right
  · exact (StepLaws.exec_state ht).elim (·.trans (hend _)) And.right

/-- The operation both states select keeps the agreement. -/
theorem exec_sameFrame (h : SameFrame s t) (hcfg : t.cfg = s.cfg) (hsel : selects s i = true)
    (hs : exec i s = .next s') (ht : exec i t = .next t') : SameFrame s' t' := by
  have hrow : ∀ c, contextOf i = some c → c ≠ .waitForStart →
      s.session.state = c ∧ s.session.state ≠ .waitForStart := fun c hc hne => by
    obtain ⟨rfl, -⟩ := row_of_selects hsel hc
    exact ⟨rfl, hne⟩
  cases i with
  | startText =>
    obtain rfl := armed_next hs
    obtain rfl := armed_next ht
    exact ⟨rfl, fun _ => (written_eq_nil rfl).trans (written_eq_nil rfl).symm, fun _ => rfl, nofun⟩
  | startBin =>
    obtain rfl := armed_next hs
    obtain rfl := armed_next ht
    exact ⟨rfl, fun _ => (written_eq_nil rfl).trans (written_eq_nil rfl).symm, nofun, nofun⟩
  | idleSkip b =>
    obtain ⟨hst, -⟩ := row_of_selects hsel rfl
    obtain rfl := Host.Outcome.next.inj hs
    obtain rfl := Host.Outcome.next.inj ht
    exact sameFrame_of_idle hst (h.state.trans hst)
  | txtAppend b =>
    obtain ⟨hst, hne⟩ := hrow _ rfl nofun
    refine h.appending hne hcfg hs ht (fun _ => ⟨rfl, rfl⟩) (fun _ => ⟨rfl, rfl⟩) h.state
      (fun htrack => congrArg (· ^^^ b) (h.xorAcc htrack)) h.expLen
  | txtCstok | txtEnd1 =>
    obtain ⟨hst, hne⟩ := hrow _ rfl nofun
    exact h.jump hne hs ht ⟨rfl, rfl⟩ ⟨rfl, rfl⟩ rfl (fun _ => h.xorAcc (by rw [hst]; rfl)) nofun
  | txtHex1 d | txtHex2 d =>
    obtain ⟨hst, hne⟩ := hrow _ rfl nofun
    have hxor := h.xorAcc (by rw [hst]; rfl)
    exact h.jump hne hs ht ⟨rfl, rfl⟩ ⟨rfl, rfl⟩ rfl (fun _ => congrArg (· ^^^ _) hxor) nofun
  | binSync2 =>
    obtain ⟨-, hne⟩ := hrow _ rfl nofun
    exact h.jump hne hs ht ⟨rfl, rfl⟩ ⟨rfl, rfl⟩ rfl nofun nofun
  | binLen0 b | binPay b =>
    obtain ⟨-, hne⟩ := hrow _ rfl nofun
    exact h.appending hne hcfg hs ht (fun _ => ⟨rfl, rfl⟩) (fun _ => ⟨rfl, rfl⟩) h.state h.xorAcc h.expLen
  | binLen1 b =>
    obtain ⟨hst, hne⟩ := hrow _ rfl nofun
    obtain ⟨-, hg⟩ := row_of_selects hsel rfl
    obtain ⟨⟨hsecond, -⟩, -⟩ : (s.session.wrCnt ≠ 0 ∧ _) ∧ _ := by simpa [guardHolds] using hg
    exact h.appending hne hcfg hs ht (fun _ => ⟨rfl, rfl⟩) (fun _ => ⟨rfl, rfl⟩) rfl nofun
      fun _ => h.decodedLength hst hsecond b
  | binLen1Zero =>
    obtain ⟨-, hne⟩ := hrow _ rfl nofun
    exact h.appending hne hcfg hs ht (fun _ => ⟨rfl, rfl⟩) (fun _ => ⟨rfl, rfl⟩) rfl nofun fun _ => rfl
  | binPayLast b =>
    obtain ⟨hst, hne⟩ := hrow _ rfl nofun
    exact h.appending hne hcfg hs ht (fun _ => ⟨rfl, rfl⟩) (fun _ => ⟨rfl, rfl⟩) rfl nofun
      fun _ => h.expLen (.inl hst)
  | binCka b =>
    obtain ⟨hst, hne⟩ := hrow _ rfl nofun
    exact h.jump hne hs ht ⟨rfl, rfl⟩ ⟨rfl, rfl⟩ rfl nofun fun _ => h.expLen (.inr (.inl hst))
  | _ => exact sameFrame_of_target hs ht fun _ => rfl

/-- The operation both states select emits the same: a frame is the bytes stored, or those behind the two
length bytes. -/
theorem emitted_sameFrame (h : SameFrame s t) (hinv : Inv s) (hcfg : t.cfg = s.cfg)
    (hsel : selects s i = true) : emitted t i = emitted s i := by
  have harm : arm t = arm s := by rw [arm, hcfg]; rfl
  cases i with
  | txtEnd2Ok =>
    obtain ⟨hst, -⟩ := row_of_selects hsel rfl
    have hne : s.session.state ≠ .waitForStart := by rw [hst]; decide
    rw [emitted, emitted, harm, h.count hne, h.cellsFrom hne (Nat.zero_add _).symm]
  | binCkbOk b =>
    obtain ⟨hst, -⟩ := row_of_selects hsel rfl
    have hne : s.session.state ≠ .waitForStart := by rw [hst]; decide
    have hcnt := hinv.atCheck (.inr hst)
    rw [emitted, emitted, harm, h.expLen (.inr (.inr hst)),
      h.cellsFrom hne (hcnt.trans (Nat.add_comm ..))]
  | _ => simp [emitted, harm]

end SameFrame

/-! ## Steps and runs -/

/-- Two states with the invariants that agree on configuration, input and the frame in progress take
steps with the same effects to two such states. -/
theorem step_sameFrame {s t : State} (h : SameFrame s t) (hs : Inv s) (ht : Inv t)
    (hcfg : t.cfg = s.cfg) (hin : t.input = s.input) :
    ∃ s' t', step s = .next s' ∧ step t = .next t' ∧ t'.effects = s'.effects ∧ SameFrame s' t'
      ∧ Inv s' ∧ Inv t' ∧ t'.cfg = s'.cfg ∧ t'.input = s'.input := by
  obtain ⟨s', hs'⟩ := StepLaws.stepNeverStops s hs
  obtain ⟨t', ht'⟩ := StepLaws.stepNeverStops t ht
  obtain ⟨hcfg1, -, hin1⟩ := StepLaws.stepKeepsConfiguration s s' hs'
  obtain ⟨hcfg2, -, hin2⟩ := StepLaws.stepKeepsConfiguration t t' ht'
  have hlive : t'.effects = s'.effects ∧ SameFrame s' t' := by
    cases hinput : s.input with
    | nil =>
      obtain rfl := Host.Outcome.next.inj ((step_of_nil hinput).symm.trans hs')
      obtain rfl := Host.Outcome.next.inj ((step_of_nil (hin.trans hinput)).symm.trans ht')
      exact ⟨rfl, h.state, h.stored, h.xorAcc, h.expLen⟩
    | cons e rest =>
      rw [step_of_cons hinput] at hs'
      rw [step_of_cons (hin.trans hinput), h.decode hs ht hcfg e] at ht'
      have hrest : SameFrame { s with input := rest } { t with input := rest } :=
        ⟨h.state, h.stored, h.xorAcc, h.expLen⟩
      have hsel := selects_decode s e rest
      refine ⟨?_, exec_sameFrame hrest hcfg hsel hs' ht'⟩
      rw [StepLaws.exec_effects hs', StepLaws.exec_effects ht',
        emitted_sameFrame hrest (inv_withInput hs) hcfg hsel]
  exact ⟨s', t', hs', ht', hlive.1, hlive.2, step_keeps_inv hs hs', step_keeps_inv ht ht',
    by rw [hcfg1, hcfg2, hcfg], by rw [hin1, hin2, hin]⟩

/-- Runs of two such states emit the same effects. -/
theorem trace_sameFrame {s t : State} (k : Nat) (h : SameFrame s t) (hs : Inv s) (ht : Inv t)
    (hcfg : t.cfg = s.cfg) (hin : t.input = s.input) :
    (trace k s).map Prod.snd = (trace k t).map Prod.snd := by
  induction k generalizing s t with
  | zero => rfl
  | succ k ih =>
    obtain ⟨s', t', hs', ht', heff, h', hinv, hinv', hcfg', hin'⟩ := step_sameFrame h hs ht hcfg hin
    have hrest := ih h' hinv hinv' hcfg' hin'
    simp only [trace, hs', ht', heff, Option.map_map]
    have hcons : ∀ u : State, (trace k u).map (Prod.snd ∘ fun r => (r.1, s'.effects :: r.2))
        = ((trace k u).map Prod.snd).map (s'.effects :: ·) := fun u => by
      rw [Option.map_map]; rfl
    rw [hcons, hcons, hrest]

/-- Settles O53: idle states have no frame in progress to differ in. -/
theorem retainedStateIsUnobservable : Obligations.RetainedStateIsUnobservable := by
  unfold Obligations.RetainedStateIsUnobservable
  intro s t k hs ht hcfg hin hidle hidle'
  exact trace_sameFrame k (sameFrame_of_idle hidle hidle') hs ht hcfg.symm hin.symm

end Sys2Proof.RetainedState

/-! SUPPORT. The port binding (spec 43_effects_and_events.md R181 to R184, 60_exceptions.md R206, R213): the
clock edge as steps, the registered outputs, the read port and the debug port. -/

namespace Sys2Proof.PortBinding

open Sys2Proof.Machine Sys2Proof.Laws Sys2Proof.Meanings

/-! ## The clock edge -/

/-- No delivery reads the effects of the step before. -/
theorem delivering_holdIdle (frame : Nat → List Byte → Effect) (base n : Nat) (s : State) :
    delivering frame base n (holdIdle s) = delivering frame base n s := by
  have hrange : ∀ n a, readRange (holdIdle s) a n = readRange s a n := fun n => by
    induction n with
    | zero => exact fun _ => rfl
    | succ n ih => exact fun a => by rw [readRange, readRange, ih]; rfl
  rw [delivering, delivering, hrange]
  rfl

/-- No operation reads the effects of the step before. -/
theorem exec_holdIdle (i : Instr) (s : State) : exec i (holdIdle s) = exec i s := by
  cases i with
  | txtEnd2Ok | binCkbOk => exact delivering_holdIdle _ _ _ s
  | _ => rfl

theorem performAll_singleton (e : Event) (s : State) : performAll [e] s = performEvent e s := by
  rw [performAll]
  cases performEvent e s <;> rfl

/-- An event performed on a held state is the step over that event alone. -/
theorem performEvent_holdIdle {s : State} (e : Event) (hin : s.input = []) :
    performEvent e (holdIdle s) = step { s with input := [e] } := by
  have hstate : { s with input := [] } = s := by rw [← hin]
  rw [step_of_cons (rest := []) rfl]
  refine (exec_holdIdle _ s).trans ?_
  exact congrArg (exec (decode s e)) hstate.symm

/-- Settles O54: an edge performs its one event on the held state; with ABORT before a byte, the byte is
performed on the held state that ABORT leaves. -/
theorem clockEdgeIsItsSteps : Obligations.ClockEdgeIsItsSteps := by
  unfold Obligations.ClockEdgeIsItsSteps
  intro s p hin
  refine ⟨fun hrst => ?reset, fun hrst habort hrx => ?byte, fun hrst habort hrx => ?abort,
    fun hrst habort hrx => ?both, fun hrst habort hrx => ?none⟩
  case reset =>
    have hev : edgeEvents p = [.reset] := by simp [edgeEvents, hrst]
    rw [clockEdge, hev, performAll_singleton, performEvent_holdIdle _ hin]
  case byte =>
    have hev : edgeEvents p = [.feed p.rxData] := by simp [edgeEvents, hrst, habort, hrx]
    rw [clockEdge, hev, performAll_singleton, performEvent_holdIdle _ hin]
  case abort =>
    have hev : edgeEvents p = [.abort] := by simp [edgeEvents, hrst, habort, hrx]
    rw [clockEdge, hev, performAll_singleton, performEvent_holdIdle _ hin]
  case both =>
    have hev : edgeEvents p = [.abort, .feed p.rxData] := by simp [edgeEvents, hrst, habort, hrx]
    have habort : performEvent .abort (holdIdle s)
        = .next (holdIdle { s with session := { s.session with state := .waitForStart } }) := rfl
    rw [clockEdge, hev, performAll, habort]
    exact (performAll_singleton _ _).trans (performEvent_holdIdle _ hin)
  case none =>
    have hev : edgeEvents p = [] := by simp [edgeEvents, hrst, habort, hrx]
    rw [clockEdge, hev, performAll, step_of_nil hin]

/-! ## The registered outputs -/

/-- The four lists of effects that a step can emit. -/
inductive StepEffects (ms : Nat) : List Effect → Prop
  | none : StepEffects ms []
  | arm : StepEffects ms [.armTimeout ms]
  | text (len : Nat) (bytes : List Byte) : StepEffects ms [.frameText len bytes, .armTimeout ms]
  | binary (len : Nat) (bytes : List Byte) : StepEffects ms [.frameBinary len bytes, .armTimeout ms]

theorem stepEffects_emitted (s : State) (i : Instr) :
    StepEffects s.cfg.timeoutMs (emitted s i) := by
  cases i with
  | idleSkip | abort | reset => exact .none
  | txtEnd2Ok => exact .text _ _
  | binCkbOk => exact .binary _ _
  | _ => exact .arm

theorem step_effects {s t : State} (h : step s = .next t) : StepEffects s.cfg.timeoutMs t.effects := by
  obtain ⟨-, rfl⟩ | ⟨e, rest, -, hexec⟩ := step_next h
  · exact .none
  · rw [StepLaws.exec_effects hexec]
    exact stepEffects_emitted { s with input := rest } (decode s e)

/-- Settles O55: each output is read off the list of effects, which is one of the four of `StepEffects`. -/
theorem outputPinsShowEffects : Obligations.OutputPinsShowEffects := by
  unfold Obligations.OutputPinsShowEffects
  intro s t h
  have heff := step_effects h
  simp only [armTimeoutPin, sinkTextPin, sinkBinPin, sinkLenPin, sinkBasePin]
  generalize t.effects = effs at heff
  cases heff with
  | none => simp
  | arm => simp
  | text len bytes =>
    refine ⟨by simp, by simp, by simp, fun len' bytes' hmem hlen => ?_, by simp⟩
    obtain ⟨rfl, -⟩ : len' = len ∧ bytes' = bytes := by simpa using hmem
    exact ⟨if_pos hlen, rfl⟩
  | binary len bytes =>
    refine ⟨by simp, by simp, by simp, by simp, fun len' bytes' hmem hlen => ?_⟩
    obtain ⟨rfl, -⟩ : len' = len ∧ bytes' = bytes := by simpa using hmem
    exact ⟨if_pos hlen, rfl⟩

/-! ## The read port -/

/-- After a delivery the read port shows the cells of its range. -/
theorem cellsFrom_eq_readPort {s t : State} {frame : Nat → List Byte → Effect} {base n : Nat}
    (h : delivering frame base n s = .next t) :
    cellsFrom s base n = (List.range n).map fun i => readPort t (base + i) := by
  obtain ⟨hin, rfl⟩ := delivering_next h
  refine List.map_congr_left fun i hi => ?_
  have hi := List.mem_range.mp hi
  have hinside : base + i < s.cfg.C := by omega
  exact (if_pos hinside).symm

/-- Settles O56: a frame effect is that of a delivery, whose range lies in the buffer and whose step leaves
the cells as they are. -/
theorem readPortShowsDeliveredFrame : Obligations.ReadPortShowsDeliveredFrame := by
  unfold Obligations.ReadPortShowsDeliveredFrame
  intro s t h
  obtain ⟨-, rfl⟩ | ⟨e, rest, -, hexec⟩ := step_next h
  · exact ⟨nofun, nofun⟩
  · rw [StepLaws.exec_effects hexec]
    refine ⟨fun len bytes hmem => ?text, fun len bytes hmem => ?binary⟩
    case text =>
      obtain ⟨hi, he⟩ | ⟨b, -, he⟩ := StepLaws.frame_mem_emitted hmem rfl
      · obtain ⟨rfl, rfl⟩ := Effect.frameText.inj he
        rw [hi, exec_txtEnd2Ok] at hexec
        simpa only [Nat.zero_add] using cellsFrom_eq_readPort hexec
      · exact absurd he nofun
    case binary =>
      obtain ⟨-, he⟩ | ⟨b, hi, he⟩ := StepLaws.frame_mem_emitted hmem rfl
      · exact absurd he nofun
      · obtain ⟨rfl, rfl⟩ := Effect.frameBinary.inj he
        rw [hi, exec_binCkbOk] at hexec
        exact cellsFrom_eq_readPort hexec

/-! ## The debug port -/

theorem le_two_pow_ceilLog2 (n : Nat) : n ≤ 2 ^ ceilLog2 n := by
  rw [ceilLog2]
  cases hfind : (List.range (n + 1)).find? fun w => decide (n ≤ 2 ^ w) with
  | none => exact n.lt_two_pow_self.le
  | some w => simpa using List.find?_some hfind

/-- `WC` bits hold every count up to the capacity (R27). -/
theorem dbgWrcnt_toNat {s : State} (h : s.session.wrCnt ≤ s.cfg.C) :
    (dbgWrcnt s).toNat = s.session.wrCnt := by
  have hwidth := le_two_pow_ceilLog2 (s.cfg.C + 1)
  exact (BitVec.toNat_ofNat ..).trans (Nat.mod_eq_of_lt (h.trans_lt hwidth))

theorem fsmState_code_injective : Function.Injective FsmState.code := by
  intro f g h
  cases f <;> cases g <;> simp [FsmState.code] at h ⊢

theorem proto_code_injective : Function.Injective Proto.code := by
  intro p q h
  cases p <;> cases q <;> simp [Proto.code] at h ⊢

/-- Settles O57: every encoding of the debug port loses nothing. -/
theorem debugPortShowsRegisters : Obligations.DebugPortShowsRegisters := by
  unfold Obligations.DebugPortShowsRegisters
  intro s t _ hs ht hstate hproto hxor hacc1 hacc2 hlen hcnt
  have hstate := fsmState_code_injective hstate
  have hproto := proto_code_injective hproto
  rw [dbgWrcnt_toNat hs, dbgWrcnt_toNat ht] at hcnt
  simp only [dbgXor, dbgAcc1, dbgAcc2, dbgExplen] at hxor hacc1 hacc2 hlen
  simp only [hstate, hproto, hxor, hacc1, hacc2, hlen, hcnt]

end Sys2Proof.PortBinding
